-- ==== Sys2Proof/Word.lean ====
section
/-! DEFINITION. The widths of the engine's values (spec 00_scope.md section 5): bytes, 16-bit words, byte sequences. -/

namespace Sys2Proof

/-- A byte: an 8-bit unsigned value. -/
abbrev Byte := BitVec 8

/-- A word: a 16-bit unsigned value. -/
abbrev Word := BitVec 16

/-- A byte sequence; `s[i]` is its i-th byte, counting from 0. -/
abbrev Bytes := List Byte

end Sys2Proof
end

