-- ==== Sys2Proof/Config.lean ====
section
/-! DEFINITION. What is fixed when an engine is built (spec 00_scope.md R7, 10_state.md R42). No step writes these.
The values of `SOH_SIZE` … `CRC_SEED` are normative. The `CODE_*` values are a parameter with defaults, so they are an
argument of every function that reads them and stand in the state of the engine built with them (log 8). -/

namespace Sys2Proof

/-- Which numbers beside 0 name a storage code: left free, so that `StorageCode` is an OPEN type (R7, D9; log 9). -/
opaque Config.isStorageCode : Nat → Bool

/-- The type of the failure code the storage collaborator reports (R7, R39, D9: an OPEN type parameter). Its codes are
numbered; how many there are and which numbers they have is free, but for one that is numbered 0 (DESIGN CHOICE, log 9).
The engine only copies a code and never looks into it. -/
abbrev StorageCode := { number : Nat // number = 0 ∨ Config.isStorageCode number = true }

/-- The one code that every choice of the type is known to have. -/
def storageCodeZero : StorageCode := ⟨0, .inl rfl⟩

namespace Config

/-- Payload bytes of an SOH packet. -/
def sohSize : Nat := 128
/-- Payload bytes of an STX packet. -/
def stxSize : Nat := 1024
/-- Largest chunk the sender requests from the source. -/
def maxChunk : Nat := 1024
/-- The fill (padding) byte. -/
def fill : Byte := 0x1A
/-- The CRC-16 polynomial. -/
def poly : Word := 0x1021
/-- The CRC seed of a fresh packet. -/
def crcSeed : Word := 0x0000
/-- Size of the receive payload buffer PBUF in bytes (20_memory.md R60). -/
def pbufSize : Nat := 1024
/-- Size of CHKBUF in bytes (10_state.md R32). -/
def chkbufSize : Nat := 2

end Config

/-- The byte values of the seven control codes (R7, 30_encoding.md R80, D2): the parameter `CODE_*`. -/
structure Codes where
  /-- `CODE_SOH`: header of a 128-byte packet -/
  soh : Byte
  /-- `CODE_STX`: header of a 1024-byte packet -/
  stx : Byte
  /-- `CODE_EOT`: end of transfer -/
  eot : Byte
  /-- `CODE_ACK`: acknowledge -/
  ack : Byte
  /-- `CODE_NAK`: negative acknowledge; the start byte in checksum mode -/
  nak : Byte
  /-- `CODE_CAN`: cancel -/
  can : Byte
  /-- `CODE_CRQ`: CRC-request character, the start byte in CRC mode -/
  crq : Byte
deriving DecidableEq, Repr

/-- "The seven values are distinct, and every rule depends on that" (R80); an engine built with two equal values is outside
the spec (D2). -/
def Codes.distinct (codes : Codes) : Bool :=
  decide [codes.soh, codes.stx, codes.eot, codes.ack, codes.nak, codes.can, codes.crq].Nodup

/-- The defaults of R7 and R80: the ASCII characters the names denote. -/
def Codes.default : Codes where
  soh := 0x01
  stx := 0x02
  eot := 0x04
  ack := 0x06
  nak := 0x15
  can := 0x18
  crq := 0x43

end Sys2Proof
end

