-- ==== Sys2Proof/Word/Vocabulary.lean ====
section
/-! DEFINITION. The names the spec gives to modes, phases, states, codes, requests, answers and outputs, as data. -/

namespace Sys2Proof

/-- The verification kind of a session (10_state.md R25). -/
inductive Mode where
  | checksum
  | crc16
deriving DecidableEq, Repr

/-- Which timeout the host applies to a read: `T_CHAR`, `T_HS` or `T_RESP` (43_host.md R235). -/
inductive RdKind where
  | char
  | hs
  | resp
deriving DecidableEq, Repr

/-- How the sender computes the "first block" tag (00_scope.md R7, 42_sender.md R196). -/
inductive FirstTagRule where
  | wrapped8
  | firstOnly
deriving DecidableEq, Repr

/-- The configuration operands of START (43_host.md R230): two budgets, which have no default, and three parameters with
the defaults of 00_scope.md R7 (D12, D13, D30). -/
structure SessionCfg where
  retryMax     : Nat
  txRetryMax   : Nat
  rxInitMode   : Mode := .crc16
  rxTextMode   : Bool := false
  firstTagRule : FirstTagRule := .wrapped8
deriving DecidableEq, Repr

/-- `ROLE` (10_state.md R36). -/
inductive Role where
  | none
  | rx
  | tx
deriving DecidableEq, Repr

/-- `RXST`, the receiver state (10_state.md R22). -/
inductive RxSt where
  | awaitStart
  | receiving
  | endOfTransfer
  | cancelled
  | failed
deriving DecidableEq, Repr

/-- `TXST`, the sender state (10_state.md R23). -/
inductive TxSt where
  | awaitHandshake
  | sending
  | done
  | failed
deriving DecidableEq, Repr

/-- The terminal state `terminate` is given (60_exceptions.md R254, R251). Which register takes it, `terminate` decides. -/
inductive EndState where
  | endOfTransfer
  | cancelled
  | failed
  | done
deriving DecidableEq, Repr

/-- `PH`, the phase (10_state.md R24). -/
inductive Phase where
  | settle
  | hdr
  | bnum
  | bcmp
  | data
  | chk
  | sink
  | hs
  | src
  | resp
  | respCan
  | eot
  | eotCan
  | term
deriving DecidableEq, Repr

/-- The eight result codes (60_exceptions.md R250). -/
inductive Result where
  | ok
  | endOfTransfer
  | timeout
  | crcError
  | framingError
  | cancel
  | storageError
  | error
deriving DecidableEq, Repr

/-- The five reasons of a model fault (60_exceptions.md R262). -/
inductive FaultReason where
  | startWhileBusy
  | badConfig
  | badAnswer
  | sourceContract
  | unwritten
deriving DecidableEq, Repr

/-- The engine's request kinds (43_host.md R233). The settle time of `DELAY(T_SETTLE)` is the host's. -/
inductive Request where
  | delay
  | rd (kind : RdKind)
  | sink (blk : Byte) (bytes : Bytes)
  | src (max : Nat) (first : Bool)
deriving DecidableEq, Repr

/-- What the environment may answer (43_host.md R233). -/
inductive Answer where
  | elapsed
  | byte (b : Byte)
  | timeout
  | sinkOk
  | sinkFail (code : StorageCode)
  | srcData (n : Nat) (bytes : Bytes)
  | srcFail (code : StorageCode)
deriving DecidableEq, Repr

/-- The answer to a read, as the operand of the rows that take "any other value, or a Timeout answer". -/
inductive Reply where
  | byte (b : Byte)
  | timeout
deriving DecidableEq, Repr

/-- What the environment can do to the engine: a START command (43_host.md R230) or an answer (R234). -/
inductive Event where
  | startRx (cfg : SessionCfg)
  | startTx (cfg : SessionCfg)
  | answer (a : Answer)
deriving DecidableEq, Repr

/-- One entry of the output history (43_host.md R236, R237): a byte written, or a flush. -/
inductive Out where
  | wr (b : Byte)
  | flush
deriving DecidableEq, Repr

/-- A use of the output port: `WR(b)`, `WRBUF(bytes)`, `FLUSH` (43_host.md R236, R237). -/
inductive OutPort where
  | wr (b : Byte)
  | wrbuf (bytes : Bytes)
  | flush
deriving DecidableEq, Repr

/-- What SIZE_SELECT chooses for a chunk length: EOT, or a header with its payload size (40_codec.md R122). -/
inductive SizeSel where
  | eot
  | packet (hdr : Byte) (size : Nat)
deriving DecidableEq, Repr

/-- The result of a codec operation that is run as an instruction of its own (the model's own, log 12). -/
inductive DpOut where
  | empty
  | word (w : Word)
  | byte (b : Byte)
  | bytes (bs : Bytes)
  | length (n : Nat)
  | flag (b : Bool)
  | verdict (r : Result)
  | size (z : SizeSel)
deriving DecidableEq, Repr

/-- Where an instruction stands and what stands there: the "format" and "match" columns of the opcode table. The seven
formats rx-byte@, rx-answer@, tx-byte@, tx-answer@ are one constructor: an answer at a phase. -/
inductive Encoded where
  | command (e : Event)
  | answerAt (p : Phase) (a : Answer)
  | rxEmit (o : List Out)
  | txEmit (o : List Out)
  | output (o : OutPort)
  | request (q : Request)
deriving DecidableEq, Repr

/-- Why the decoder refuses an encoding: no row of the opcode table stands there. -/
inductive DecodeReject where
  /-- no rule of the phase takes this answer (43_host.md R233) -/
  | badAnswer
  /-- the outputs are none the role emits as a unit (30_encoding.md R83 to R85) -/
  | notAnEmission
  /-- the event is an answer and not a host command (43_host.md R230) -/
  | notACommand
  /-- the request's operands are outside their range (43_host.md R239, R240) -/
  | badRequest
deriving DecidableEq, Repr

end Sys2Proof
end

