-- ==== Sys2Proof/Machine/Flags.lean ====
section
/-! DEFINITION. The verification computations: CRC-16/XMODEM, the additive checksum, the verifier and the complement
check (spec 40_codec.md R110 to R119). Pure functions of their operands. -/

namespace Sys2Proof.Machine

/-- One shift of the CRC register: a carry out of bit 15 selects the exclusive-or with `POLY` (R110). -/
def crcShift (x : Word) : Word :=
  if x.getLsbD 15 then (x <<< 1) ^^^ Config.poly else x <<< 1

/-- `k` shifts of the CRC register. -/
def crcShifts : Nat → Word → Word
  | 0, x => x
  | k + 1, x => crcShifts k (crcShift x)

/-- CRC16_UPDATE (R110): the byte enters at bits 15..8, then eight shifts. -/
def crc16Update (crc : Word) (b : Byte) : Word :=
  crcShifts 8 (crc ^^^ (b.setWidth 16 <<< 8))

/-- CRC16 (R111). -/
def crc16 (bytes : Bytes) (seed : Word) : Word :=
  bytes.foldl crc16Update seed

/-- CKSUM (R113): the sum modulo 256. -/
def cksum (bytes : Bytes) : Byte :=
  bytes.foldl (fun s b => s + b) 0

/-- Bits 15..8 of a word, the CRC byte that goes first on the wire (20_memory.md R64). -/
def hiByte (w : Word) : Byte := w.extractLsb' 8 8

/-- Bits 7..0 of a word. -/
def loByte (w : Word) : Byte := w.extractLsb' 0 8

/-- The word two received verification bytes form: the first is bits 15..8 (30_encoding.md R87). -/
def joinBytes (h l : Byte) : Word := (h.setWidth 16 <<< 8) ||| l.setWidth 16

/-- CHK_BYTES (R117). -/
def chkBytes (payload : Bytes) : Mode → Bytes
  | .checksum => [cksum payload]
  | .crc16 => [hiByte (crc16 payload Config.crcSeed), loByte (crc16 payload Config.crcSeed)]

/-- VERIFY (R117): `ok` or `crc_error`, the latter in both modes (90_conflicts.md C5). -/
def verify (payload : Bytes) (mode : Mode) (chk : Bytes) : Result :=
  if chk = chkBytes payload mode then .ok else .crcError

/-- BLKCHK (R119): the complement check. -/
def blkchk (b c : Byte) : Bool := c == ~~~b

end Sys2Proof.Machine
end

