-- ==== Sys2Proof/Machine/Operands.lean ====
section
/-! DEFINITION. The shapes of packets: sizes, padding, framing, trimming, the start byte (spec 40_codec.md R115, R116,
R120 to R123; 41_receiver.md R142). Pure functions of their operands. -/

namespace Sys2Proof.Machine

/-- INFER_SIZE (R115): the payload size a header byte announces; 0 for every byte that is no data header. -/
def inferSize (codes : Codes) (h : Byte) : Nat :=
  if h = codes.soh then Config.sohSize
  else if h = codes.stx then Config.stxSize
  else 0

/-- CHECK_LEN (R116): the length of the verification field. -/
def checkLen : Mode → Nat
  | .crc16 => 2
  | .checksum => 1

/-- PAD (R120). For data longer than `p`, which the spec says cannot occur, the data stands as it is (log 25). -/
def pad (data : Bytes) (p : Nat) : Bytes :=
  data ++ List.replicate (p - data.length) Config.fill

/-- ENCODE_FRAME (R121): header, block number, complement, payload, verification. -/
def encodeFrame (hdr b : Byte) (payload : Bytes) (mode : Mode) : Bytes :=
  [hdr, b, ~~~b] ++ payload ++ chkBytes payload mode

/-- SIZE_SELECT (R122) on a chunk length 0..1024. -/
def sizeSelect (codes : Codes) (n : Fin 1025) : SizeSel :=
  if n.val = 0 then .eot
  else if n.val ≤ Config.sohSize then .packet codes.soh Config.sohSize
  else .packet codes.stx Config.stxSize

/-- The loop of TRIM (R123): the length left of the first `k` bytes when the fill bytes that end them are dropped. -/
def trimLen (payload : Bytes) : Nat → Nat
  | 0 => 0
  | k + 1 => if payload[k]? = some Config.fill then trimLen payload k else k + 1

/-- TRIM (R123): the length left after the longest run of fill bytes at the end is dropped. -/
def trim (payload : Bytes) : Nat := trimLen payload payload.length

/-- START_BYTE (41_receiver.md R142). -/
def startByte (codes : Codes) : Mode → Byte
  | .crc16 => codes.crq
  | .checksum => codes.nak

end Sys2Proof.Machine
end

