-- ==== Sys2Proof/Syntax.lean ====
section
/-! DEFINITION. The instructions: one constructor per row of spec/opcode_table.json, in the table's order. -/

namespace Sys2Proof

/-- The engine's instructions (00_scope.md R3): wire codes at a position and the environment's other answers, emissions,
host commands, requests, outputs, and the codec's operations. -/
inductive Instr where
  -- the receiver's steps
  | rxHdrSoh
  | rxHdrStx
  | rxHdrEot
  | rxHdrCan
  | rxHdrOther (b : Byte)
  | rxHdrTimeout
  | rxBnum (blk : Byte)
  | rxBcmp (cblk : Byte)
  | rxData (d : Byte)
  | rxChk (v : Byte)
  | rxShortRead
  | rxSinkOk
  | rxSinkFail (code : StorageCode)
  | rxSettleElapsed
  -- the receiver's emissions
  | rxEmitCrq
  | rxEmitNak
  | rxEmitAck
  | rxEmitAbort
  -- the sender's steps
  | txHsCrq
  | txHsNak
  | txHsOther (b : Byte)
  | txHsTimeout
  | txSrcEof
  | txFrameSoh (n : Nat) (bytes : Bytes)
  | txFrameStx (n : Nat) (bytes : Bytes)
  | txSrcContract (n : Nat) (bytes : Bytes)
  | txSrcFail (code : StorageCode)
  | txRespAck
  | txRespCan
  | txRespOther (r : Reply)
  | txRespCanCan
  | txRespCanOther (r : Reply)
  | txEotAck
  | txEotCan
  | txEotTimeout
  | txEotOther (b : Byte)
  | txEotCanCan
  | txEotCanOther (r : Reply)
  -- the sender's emissions
  | txEmitEot
  | txEmitAbort
  | txEmitFlush
  -- the host interface
  | hostStartRx (cfg : SessionCfg)
  | hostStartTx (cfg : SessionCfg)
  | hostRd (kind : RdKind)
  | hostWr (b : Byte)
  | hostWrbuf (bytes : Bytes)
  | hostFlush
  | hostDelay
  | hostSink (blk : Byte) (bytes : Bytes)
  | hostSrc (max : Nat) (first : Bool)
  -- the codec
  | crc16Update (crc : Word) (b : Byte)
  | crc16 (bytes : Bytes) (seed : Word)
  | cksum (bytes : Bytes)
  | inferSize (header : Byte)
  | checkLen (mode : Mode)
  | chkBytes (payload : Bytes) (mode : Mode)
  | verify (payload : Bytes) (mode : Mode) (trailing : Bytes)
  | blkchk (b c : Byte)
  | pad (data : Bytes) (p : Nat)
  | encodeFrame (hdr b : Byte) (payload : Bytes) (mode : Mode)
  | sizeSelect (n : Fin 1025)
  | trim (payload : Bytes)
  | startByte (mode : Mode)
  | firstTag (blk : Byte)
deriving DecidableEq, Repr

end Sys2Proof
end

