-- ==== Sys2Proof/Machine/State.lean ====
section
/-! DEFINITION. The engine's registers and buffers, the faults and refusals, and the power-on state
(spec 10_state.md, 20_memory.md R60, 43_host.md R236, 60_exceptions.md R262, 70_reset_and_hazards.md R280). -/

namespace Sys2Proof.Machine

/-- Why the machine stops. -/
inductive Fault where
  /-- Raised by `exec` and `step` when `FAULTED` = 1: "A faulted engine takes no further step and emits nothing" (R262,
  log 3). Safe: the model stops where the spec gives no step. -/
  | engineFaulted
  /-- Raised by the accesses to PBUF (1024 bytes) and CHKBUF (2 bytes) at an index outside the array (20_memory.md R60,
  10_state.md R32, log 19), which only states that no run reaches can ask for. Safe. -/
  | noSuchByte
deriving DecidableEq, Repr

/-- Why an instruction has no meaning. -/
inductive Refusal where
  /-- Raised by `exec` for an instruction that is not modelled; every instruction is, so nothing raises it. Safe. -/
  | notModelled (mnemonic : String)
deriving DecidableEq, Repr

/-- The engine's state. An `Option` register at `none` holds no value, which is the spec's own state of a register
(10_state.md R43, log 1); for `req`, `result`, `lastError` and `storageCode` it is the spec's value "none". -/
structure State where
  /-- `BUSY` (R36) -/
  busy : Bool
  /-- `ROLE` (R36) -/
  role : Role
  /-- `RXST` (R22) -/
  rxst : Option RxSt
  /-- `TXST` (R23) -/
  txst : Option TxSt
  /-- `PH` (R24) -/
  ph : Option Phase
  /-- `REQ` (R35) -/
  req : Option Request
  /-- `MODE` (R25) -/
  mode : Option Mode
  /-- `BLK` (R26) -/
  blk : Option Byte
  /-- `BLKSET` (R26) -/
  blkset : Option Bool
  /-- `RETRY` (R27) -/
  retry : Option Nat
  /-- `TRETRY` (R28) -/
  tretry : Option Nat
  /-- `STATUS` (R29) -/
  status : Option Result
  /-- `PSIZE` (R30) -/
  psize : Option Nat
  /-- `IDX` (R30) -/
  idx : Option Nat
  /-- `RBLK` (R31) -/
  rblk : Option Byte
  /-- `RCBLK` (R31) -/
  rcblk : Option Byte
  /-- `CHKBUF`, 2 bytes (R32); a byte not listed has no value -/
  chkbuf : List Host.Cell
  /-- `CIDX` (R32) -/
  cidx : Option Nat
  /-- `CHKLEN` (R32) -/
  chklen : Option Nat
  /-- `L` (R33) -/
  l : Option Nat
  /-- `PBUF`, 1024 bytes (R60); a byte not listed has no value -/
  pbuf : List Host.Cell
  /-- `N` (R34) -/
  n : Option Nat
  /-- `FRAME` (R34) -/
  frame : Option Bytes
  /-- `FLEN` (R34) -/
  flen : Option Nat
  /-- `RESULT` (R37) -/
  result : Option Result
  /-- `LAST_ERROR` (R38) -/
  lastError : Option Result
  /-- `STORAGE_CODE` (R39) -/
  storageCode : Option StorageCode
  /-- `BYTES` (R40) -/
  bytes : Nat
  /-- `CFG_RETRY_MAX` (R41) -/
  cfgRetryMax : Option Nat
  /-- `CFG_TX_RETRY_MAX` (R41) -/
  cfgTxRetryMax : Option Nat
  /-- `CFG_RX_INIT_MODE` (R41) -/
  cfgRxInitMode : Option Mode
  /-- `CFG_RX_TEXT` (R41) -/
  cfgRxText : Option Bool
  /-- `CFG_FIRST_TAG_RULE` (R41) -/
  cfgFirstTagRule : Option FirstTagRule
  /-- `FAULTED` (R262) -/
  faulted : Bool
  /-- the reason of the model fault (R262); the model's own field, log 2 -/
  faultReason : Option FaultReason
  /-- whether this session has issued a `SRC` request (implied by R196, log 11) -/
  srcAsked : Bool
  /-- the output history: every `WR` and `FLUSH`, oldest first (R236, log 23) -/
  out : List Out
  /-- the environment's events still to come, next first; the model's own field, log 4 -/
  inbox : List Event
  /-- the result of the last codec operation run by itself; the model's own field, log 12 -/
  dp : DpOut
  /-- `BYTES_WIDTH` (R7, D11): `none` is unbounded. Fixed when the engine is built; no step writes it (log 10) -/
  bytesWidth : Option Nat
  /-- `CODE_SOH` … `CODE_CRQ` (R7, R42, D2). Fixed when the engine is built; no step writes them (log 8) -/
  codes : Codes
deriving DecidableEq, Repr

/-- The power-on state (70_reset_and_hazards.md R280): the eight registers it lists, every other register with no value.
Nothing has been emitted and no event has come (logs 2, 4, 11, 12, 23: DESIGN CHOICE); `BYTES_WIDTH` and the control
codes are the spec's defaults (logs 10, 8). -/
def State.reset : State where
  busy := false
  role := .none
  rxst := none
  txst := none
  ph := none
  req := none
  mode := none
  blk := none
  blkset := none
  retry := none
  tretry := none
  status := none
  psize := none
  idx := none
  rblk := none
  rcblk := none
  chkbuf := []
  cidx := none
  chklen := none
  l := none
  pbuf := []
  n := none
  frame := none
  flen := none
  result := none
  lastError := none
  storageCode := none
  bytes := 0
  cfgRetryMax := none
  cfgTxRetryMax := none
  cfgRxInitMode := none
  cfgRxText := none
  cfgFirstTagRule := none
  faulted := false
  faultReason := none
  srcAsked := false
  out := []
  inbox := []
  dp := .empty
  bytesWidth := none
  codes := Codes.default

end Sys2Proof.Machine
end

