-- ==== Sys2Proof/Machine/Ops.lean ====
section
/-! DEFINITION. The named operations over registers, buffers and outputs; termination, the model fault, and the
procedures that several steps share (spec 00_scope.md section 5; 41_receiver.md R140, R154 to R162; 42_sender.md R190,
R195, R196, R202, R208; 60_exceptions.md R254, R262). -/

namespace Sys2Proof.Machine

/-- What a step answers. -/
abbrev Step := Host.Outcome State Fault Refusal

/-! ### Register writes -/

/-- `BUSY <- v`. -/
def State.setBusy (s : State) (v : Bool) : State := { s with busy := v }

/-- `ROLE <- v`. -/
def State.setRole (s : State) (v : Role) : State := { s with role := v }

/-- `RXST <- v`. -/
def State.setRxst (s : State) (v : Option RxSt) : State := { s with rxst := v }

/-- `TXST <- v`. -/
def State.setTxst (s : State) (v : Option TxSt) : State := { s with txst := v }

/-- `PH <- v`. -/
def State.setPh (s : State) (v : Option Phase) : State := { s with ph := v }

/-- `REQ <- v`. -/
def State.setReq (s : State) (v : Option Request) : State := { s with req := v }

/-- `MODE <- v`. -/
def State.setMode (s : State) (v : Option Mode) : State := { s with mode := v }

/-- `BLK <- v`. -/
def State.setBlk (s : State) (v : Option Byte) : State := { s with blk := v }

/-- `BLKSET <- v`. -/
def State.setBlkset (s : State) (v : Option Bool) : State := { s with blkset := v }

/-- `RETRY <- v`. -/
def State.setRetry (s : State) (v : Option Nat) : State := { s with retry := v }

/-- `TRETRY <- v`. -/
def State.setTretry (s : State) (v : Option Nat) : State := { s with tretry := v }

/-- `STATUS <- v`. -/
def State.setStatus (s : State) (v : Option Result) : State := { s with status := v }

/-- `PSIZE <- v`. -/
def State.setPsize (s : State) (v : Option Nat) : State := { s with psize := v }

/-- `IDX <- v`. -/
def State.setIdx (s : State) (v : Option Nat) : State := { s with idx := v }

/-- `RBLK <- v`. -/
def State.setRblk (s : State) (v : Option Byte) : State := { s with rblk := v }

/-- `RCBLK <- v`. -/
def State.setRcblk (s : State) (v : Option Byte) : State := { s with rcblk := v }

/-- `CHKBUF <- v`. -/
def State.setChkbuf (s : State) (v : List Host.Cell) : State := { s with chkbuf := v }

/-- `CIDX <- v`. -/
def State.setCidx (s : State) (v : Option Nat) : State := { s with cidx := v }

/-- `CHKLEN <- v`. -/
def State.setChklen (s : State) (v : Option Nat) : State := { s with chklen := v }

/-- `L <- v`. -/
def State.setL (s : State) (v : Option Nat) : State := { s with l := v }

/-- `PBUF <- v`. -/
def State.setPbuf (s : State) (v : List Host.Cell) : State := { s with pbuf := v }

/-- `N <- v`. -/
def State.setN (s : State) (v : Option Nat) : State := { s with n := v }

/-- `FRAME <- v`. -/
def State.setFrame (s : State) (v : Option Bytes) : State := { s with frame := v }

/-- `FLEN <- v`. -/
def State.setFlen (s : State) (v : Option Nat) : State := { s with flen := v }

/-- `RESULT <- v`. -/
def State.setResult (s : State) (v : Option Result) : State := { s with result := v }

/-- `LAST_ERROR <- v`. -/
def State.setLastError (s : State) (v : Option Result) : State := { s with lastError := v }

/-- `STORAGE_CODE <- v`. -/
def State.setStorageCode (s : State) (v : Option StorageCode) : State := { s with storageCode := v }

/-- `BYTES <- v`. -/
def State.setBytes (s : State) (v : Nat) : State := { s with bytes := v }

/-- `CFG_RETRY_MAX <- v`. -/
def State.setCfgRetryMax (s : State) (v : Option Nat) : State := { s with cfgRetryMax := v }

/-- `CFG_TX_RETRY_MAX <- v`. -/
def State.setCfgTxRetryMax (s : State) (v : Option Nat) : State := { s with cfgTxRetryMax := v }

/-- `CFG_RX_INIT_MODE <- v`. -/
def State.setCfgRxInitMode (s : State) (v : Option Mode) : State := { s with cfgRxInitMode := v }

/-- `CFG_RX_TEXT <- v`. -/
def State.setCfgRxText (s : State) (v : Option Bool) : State := { s with cfgRxText := v }

/-- `CFG_FIRST_TAG_RULE <- v`. -/
def State.setCfgFirstTagRule (s : State) (v : Option FirstTagRule) : State := { s with cfgFirstTagRule := v }

/-- `FAULTED <- v`. -/
def State.setFaulted (s : State) (v : Bool) : State := { s with faulted := v }

/-- Writes the field `faultReason`. -/
def State.setFaultReason (s : State) (v : Option FaultReason) : State := { s with faultReason := v }

/-- Writes the field `srcAsked`. -/
def State.setSrcAsked (s : State) (v : Bool) : State := { s with srcAsked := v }

/-- Writes the field `out`. -/
def State.setOut (s : State) (v : List Out) : State := { s with out := v }

/-- Writes the field `inbox`. -/
def State.setInbox (s : State) (v : List Event) : State := { s with inbox := v }

/-- Writes the field `dp`. -/
def State.setDp (s : State) (v : DpOut) : State := { s with dp := v }

/-! ### Byte arrays: cells with rising indices; a byte that no cell lists has no value (log 19) -/

/-- The byte at index `a`, if it has a value. -/
def Memory.read : List Host.Cell → Nat → Option Byte
  | [], _ => none
  | (k, v) :: m, a => if k = a then some v else Memory.read m a

/-- The array with byte `b` at index `a`. -/
def Memory.write : List Host.Cell → Nat → Byte → List Host.Cell
  | [], a, b => [(a, b)]
  | (k, v) :: m, a, b =>
    if a < k then (a, b) :: (k, v) :: m
    else if a = k then (a, b) :: m
    else (k, v) :: Memory.write m a b

/-- The bytes from index `a` on, `len` of them, if every one has a value. -/
def Memory.slice (m : List Host.Cell) (a : Nat) : Nat → Option Bytes
  | 0 => some []
  | len + 1 =>
    match Memory.read m a, Memory.slice m (a + 1) len with
    | some b, some bs => some (b :: bs)
    | _, _ => none

/-- The canonical form: indices strictly rising and inside an array of `size` bytes. No cell can hold what an unlisted
index reads as, since that is "no value". -/
def Memory.wf (size : Nat) : List Host.Cell → Bool
  | [] => true
  | (k, _) :: m => decide (k < size) && m.all (fun c => decide (k < c.1)) && Memory.wf size m

/-! ### Outputs, requests, counters -/

/-- `emit b`: a byte on the write port (43_host.md R236). -/
def State.emit (s : State) (b : Byte) : State := s.setOut (s.out ++ [.wr b])

/-- `emit WRBUF(bytes)`: the same as emitting each byte in order (R236). -/
def State.emitBuf (s : State) (bytes : Bytes) : State := s.setOut (s.out ++ bytes.map .wr)

/-- `emit FLUSH` (R237). -/
def State.emitFlush (s : State) : State := s.setOut (s.out ++ [.flush])

/-- The abort sequence, two CAN bytes (30_encoding.md R84). -/
def State.emitAbort (s : State) : State := (s.emit s.codes.can).emit s.codes.can

/-- Whether a request asks the source. -/
def isSrc : Request → Bool
  | .src _ _ => true
  | .delay | .rd _ | .sink _ _ => false

/-- `request q`: `q` becomes the one outstanding request (10_state.md R35); a request to the source is remembered for
FIRST_TAG (log 11). -/
def State.request (s : State) (q : Request) : State :=
  (s.setReq (some q)).setSrcAsked (s.srcAsked || isSrc q)

/-- The bytes counter at the width `BYTES_WIDTH`: unbounded, or modulo 2^width (D11). -/
def wrapBytes : Option Nat → Nat → Nat
  | none, x => x
  | some w, x => x % 2 ^ w

/-- `BYTES <- BYTES + k` (10_state.md R40). -/
def State.addBytes (s : State) (k : Nat) : State := s.setBytes (wrapBytes s.bytesWidth (s.bytes + k))

/-! ### Termination and the model fault -/

/-- `LAST_ERROR <- code` when the code is neither `ok` nor `end_of_transfer` (10_state.md R38). -/
def State.recordError (s : State) (code : Result) : State :=
  if code = .ok ∨ code = .endOfTransfer then s else s.setLastError (some code)

/-- A terminal state as a value of `RXST` (10_state.md R22). DONE is no value of that register (log 14). -/
def rxStateOf : EndState → Option RxSt
  | .endOfTransfer => some .endOfTransfer
  | .cancelled => some .cancelled
  | .failed => some .failed
  | .done => none

/-- A terminal state as a value of `TXST` (10_state.md R23). END_OF_TRANSFER and CANCELLED are no values of that register
(log 14). -/
def txStateOf : EndState → Option TxSt
  | .done => some .done
  | .failed => some .failed
  | .endOfTransfer => none
  | .cancelled => none

/-- `if ROLE = rx: RXST <- S  else: TXST <- S` (R254). -/
def State.setEnd (s : State) (t : EndState) : State :=
  if s.role = .rx then s.setRxst (rxStateOf t) else s.setTxst (txStateOf t)

/-- `terminate(S, code)` (60_exceptions.md R254). -/
def State.terminate (s : State) (t : EndState) (code : Result) : State :=
  ((((((s.setEnd t).setStatus (some code)).setResult (some code)).recordError code).setBusy false).setPh
    (some .term)).setReq none

/-- `raise FAULT(reason)` (60_exceptions.md R262): `FAULTED <- 1`; the reason goes to the model's own field (log 2). -/
def State.raise (s : State) (reason : FaultReason) : State :=
  (s.setFaulted true).setFaultReason (some reason)

/-- A faulted engine takes no further step (R262, log 3). -/
def live (s : State) (k : Step) : Step :=
  if s.faulted then .fault .engineFaulted else k

/-- The read of a register: one with no value raises FAULT(unwritten) in the state the step has reached by then
(10_state.md R43; log 18). -/
def State.need {α : Type} (s : State) (r : Option α) (k : α → Step) : Step :=
  match r with
  | some v => k v
  | none => .next (s.raise .unwritten)

/-- The read of the first `len` bytes of an array of `size` bytes. -/
def State.needSlice (s : State) (size : Nat) (m : List Host.Cell) (len : Nat) (k : Bytes → Step) : Step :=
  if len ≤ size then s.need (Memory.slice m 0 len) k else .fault .noSuchByte

/-- The write of one byte of an array of `size` bytes. -/
def storeByte (size : Nat) (m : List Host.Cell) (a : Nat) (b : Byte) (k : List Host.Cell → Step) : Step :=
  if a < size then k (Memory.write m a b) else .fault .noSuchByte

/-! ### Session start -/

/-- The configuration is within the bounds of 00_scope.md R7, both budgets for either role (log 15). -/
def inBounds (cfg : SessionCfg) : Bool := decide (1 ≤ cfg.retryMax) && decide (1 ≤ cfg.txRetryMax)

/-- START latches `CFG_*` (43_host.md R230). -/
def State.latch (s : State) (cfg : SessionCfg) : State :=
  ((((s.setCfgRetryMax (some cfg.retryMax)).setCfgTxRetryMax (some cfg.txRetryMax)).setCfgRxInitMode
    (some cfg.rxInitMode)).setCfgRxText (some cfg.rxTextMode)).setCfgFirstTagRule (some cfg.firstTagRule)

/-- What both roles' starts write (R140, R190). -/
def State.openSession (s : State) (role : Role) : State :=
  (((((s.setRole role).setBusy true).setResult none).setStatus (some .ok)).setBytes 0).setStorageCode none

/-- The receiver's registers have no value until a rule of the session writes them (70_reset_and_hazards.md R281,
10_state.md section 6; log 16). -/
def State.clearRx (s : State) : State :=
  ((((((((((s.setBlk none).setPsize none).setIdx none).setRblk none).setRcblk none).setChkbuf []).setCidx
    none).setChklen none).setL none).setPbuf [])

/-- The sender's registers have no value until a rule of the session writes them (R190, R281; log 16). -/
def State.clearTx (s : State) : State :=
  ((((((s.setMode none).setBlk none).setTretry none).setN none).setFrame none).setFlen none).setSrcAsked false

/-- RX_START (41_receiver.md R140). -/
def State.rxStart (s : State) : State :=
  ((((((s.openSession .rx).clearRx.setRxst (some .awaitStart)).setMode s.cfgRxInitMode).setRetry
    s.cfgRetryMax).setBlkset (some false)).setPh (some .settle)).request .delay

/-- TX_START (42_sender.md R190). -/
def State.txStart (s : State) : State :=
  ((((s.openSession .tx).clearTx.setTxst (some .awaitHandshake)).emitFlush).setPh (some .hs)).request (.rd .hs)

/-- START (43_host.md R230): the busy test, then the configuration test, then the role's start. -/
def start (cfg : SessionCfg) (begin_ : State → State) (s : State) : Step :=
  if s.busy then .next (s.raise .startWhileBusy)
  else if inBounds cfg then .next (begin_ (s.latch cfg))
  else .next (s.raise .badConfig)

/-! ### The receiver's procedures -/

/-- Wait for the header of a packet. -/
def State.awaitHeader (s : State) : State := (s.setPh (some .hdr)).request (.rd .char)

/-- `FALLBACK_OK(cause)` (R160). -/
def fallbackOk (cause : Result) (s : State) (k : Bool → Step) : Step :=
  if cause = .timeout ∨ cause = .framingError then
    s.need s.blkset fun set =>
      if set then k false else s.need s.mode fun m => k (decide (m = .crc16))
  else k false

/-- FALLBACK (R160). -/
def fallback (s : State) : Step :=
  (s.setMode (some .checksum)).need s.cfgRetryMax fun r =>
    .next ((((s.setMode (some .checksum)).setRetry (some r)).emit (startByte s.codes .checksum)).awaitHeader)

/-- EXHAUST(cause) (R161). -/
def exhaust (cause : Result) (s : State) : Step := .next (s.terminate .failed cause)

/-- RETRY_RESPONSE(cause) (R162). -/
def retryResponse (cause : Result) (s : State) : Step :=
  if cause = .crcError then .next (s.emit s.codes.nak).awaitHeader
  else
    s.need s.blkset fun set =>
      if set then .next (s.emit s.codes.nak).awaitHeader
      else s.need s.mode fun m => .next (s.emit (startByte s.codes m)).awaitHeader

/-- What FAIL_ATTEMPT does after it has taken one from the budget (R159). -/
def afterFailure (cause : Result) (left : Nat) (s : State) : Step :=
  if left = 0 then fallbackOk cause s fun ok => if ok then fallback s else exhaust cause s
  else retryResponse cause s

/-- FAIL_ATTEMPT(cause) (R159). The subtraction stops at 0, which only a budget of 0 on entry could show (log 17). -/
def failAttempt (cause : Result) (s : State) : Step :=
  (s.setStatus (some cause)).need s.retry fun r =>
    afterFailure cause (r - 1) ((s.setStatus (some cause)).setRetry (some (r - 1)))

/-- The end of ACCEPT (R156): the length for the sink, and the sink request. -/
def handToSink (blk : Byte) (s : State) : Step :=
  s.need s.cfgRxText fun text =>
  s.need s.psize fun p =>
  s.needSlice Config.pbufSize s.pbuf p fun payload =>
    let len := if text then trim payload else p
    .next (((s.setL (some len)).setPh (some .sink)).request (.sink blk (payload.take len)))

/-- ACCEPT (R156). -/
def accept (s : State) : Step :=
  (s.setStatus (some .ok)).need s.cfgRetryMax fun r =>
  ((s.setStatus (some .ok)).setRetry (some r)).need s.rblk fun b =>
    handToSink b
      (((((s.setStatus (some .ok)).setRetry (some r)).setBlk (some b)).setBlkset (some true)).setRxst
        (some .receiving))

/-- Evaluation, part 2: verification (R155). -/
def verifyPacket (s : State) : Step :=
  s.need s.psize fun p =>
  s.needSlice Config.pbufSize s.pbuf p fun payload =>
  s.need s.mode fun m =>
  s.need s.chklen fun c =>
  s.needSlice Config.chkbufSize s.chkbuf c fun chk =>
    if verify payload m chk = .crcError then failAttempt .crcError s else accept s

/-- EVALUATE: the complement check, then verification (R154, R155, R255). -/
def evaluate (s : State) : Step :=
  s.need s.rblk fun b =>
  s.need s.rcblk fun c =>
    if blkchk b c then verifyPacket s else failAttempt .crcError s

/-! ### The sender's procedures -/

/-- FIRST_TAG(blk) (R196). -/
def firstTagBy (srcAsked : Bool) (blk : Byte) : FirstTagRule → Bool
  | .wrapped8 => decide (blk.toNat < 2)
  | .firstOnly => !srcAsked

/-- BLOCK_START (R195). -/
def blockStart (s : State) : Step :=
  (s.setPh (some .src)).need s.blk fun blk =>
  (s.setPh (some .src)).need s.cfgFirstTagRule fun rule =>
    .next ((s.setPh (some .src)).request (.src Config.maxChunk (firstTagBy s.srcAsked blk rule)))

/-- The handshake's effect (R191, R192). -/
def handshake (m : Mode) (s : State) : Step :=
  blockStart (((s.setMode (some m)).setBlk (some 1)).setTxst (some .sending))

/-- Wait for the response to a data packet. -/
def State.awaitResponse (s : State) : State := (s.setPh (some .resp)).request (.rd .resp)

/-- `emit WRBUF(FRAME[0..FLEN))`, then wait for the response (R202, R208). Bytes of FRAME past its end have no value
(log 20). -/
def sendFrame (s : State) : Step :=
  s.need s.frame fun f =>
  s.need s.flen fun len =>
    if len ≤ f.length then .next (s.emitBuf (f.take len)).awaitResponse else .next (s.raise .unwritten)

/-- SEND_FIRST (R202). -/
def sendFirst (s : State) : Step :=
  s.need s.cfgTxRetryMax fun r => sendFrame (s.setTretry (some r))

/-- The framing of a chunk of length `n` as a packet of payload size `p` (R198, R199). -/
def frameChunk (hdr : Byte) (p n : Nat) (bytes : Bytes) (s : State) : Step :=
  (s.setN (some n)).need s.blk fun blk =>
  (s.setN (some n)).need s.mode fun m =>
    sendFirst
      (((s.setN (some n)).setFrame (some (encodeFrame hdr blk (pad bytes p) m))).setFlen (some (3 + p + checkLen m)))

/-- TX_FAIL_ATTEMPT(cause) (R208). The subtraction stops at 0, as in FAIL_ATTEMPT (log 17). -/
def txFailAttempt (cause : Result) (s : State) : Step :=
  (s.setStatus (some cause)).need s.tretry fun r =>
    let s' := (s.setStatus (some cause)).setTretry (some (r - 1))
    if r - 1 = 0 then .next (s'.terminate .failed .timeout) else sendFrame s'

/-- The cause of a failed transmission, or of a failed EOT: `timeout` for a Timeout answer, `error` for a byte (R205,
R207, R211). -/
def causeOf : Reply → Result
  | .timeout => .timeout
  | .byte _ => .error

/-- A storage failure in either role (R158, R201): CAN CAN, the code recorded, the session ended FAILED. -/
def storageFailure (code : StorageCode) (s : State) : Step :=
  .next ((s.emitAbort.setStorageCode (some code)).terminate .failed .storageError)

end Sys2Proof.Machine
end

