-- ==== Sys2Proof/Machine/Datapath.lean ====
section
/-! DEFINITION. The codec's operations as instructions of their own (opcode table format internal; spec 40_codec.md,
41_receiver.md R142, 42_sender.md R196). They write no register of the engine; the result appears at the datapath's
result port `dp`, the model's own field (log 12). The steps' rules use the same functions directly. -/

namespace Sys2Proof.Machine

/-- A codec operation run by itself: its result at the result port, every register as it was. -/
def portResult (s : State) (r : DpOut) : Step := live s (.next (s.setDp r))

/-- CRC16_UPDATE (R110). -/
def execCrc16Update (crc : Word) (b : Byte) (s : State) : Step := portResult s (.word (crc16Update crc b))

/-- CRC16 (R111). -/
def execCrc16 (bytes : Bytes) (seed : Word) (s : State) : Step := portResult s (.word (crc16 bytes seed))

/-- CKSUM (R113). -/
def execCksum (bytes : Bytes) (s : State) : Step := portResult s (.byte (cksum bytes))

/-- INFER_SIZE (R115). -/
def execInferSize (header : Byte) (s : State) : Step := portResult s (.length (inferSize s.codes header))

/-- CHECK_LEN (R116). -/
def execCheckLen (mode : Mode) (s : State) : Step := portResult s (.length (checkLen mode))

/-- CHK_BYTES (R117). -/
def execChkBytes (payload : Bytes) (mode : Mode) (s : State) : Step := portResult s (.bytes (chkBytes payload mode))

/-- VERIFY (R117). -/
def execVerify (payload : Bytes) (mode : Mode) (trailing : Bytes) (s : State) : Step :=
  portResult s (.verdict (verify payload mode trailing))

/-- BLKCHK (R119). -/
def execBlkchk (b c : Byte) (s : State) : Step := portResult s (.flag (blkchk b c))

/-- PAD (R120). -/
def execPad (data : Bytes) (p : Nat) (s : State) : Step := portResult s (.bytes (pad data p))

/-- ENCODE_FRAME (R121). -/
def execEncodeFrame (hdr b : Byte) (payload : Bytes) (mode : Mode) (s : State) : Step :=
  portResult s (.bytes (encodeFrame hdr b payload mode))

/-- SIZE_SELECT (R122). -/
def execSizeSelect (n : Fin 1025) (s : State) : Step := portResult s (.size (sizeSelect s.codes n))

/-- TRIM (R123). -/
def execTrim (payload : Bytes) (s : State) : Step := portResult s (.length (trim payload))

/-- START_BYTE (R142). -/
def execStartByte (mode : Mode) (s : State) : Step := portResult s (.byte (startByte s.codes mode))

/-- FIRST_TAG (R196): the rule is the session's `CFG_FIRST_TAG_RULE`. -/
def execFirstTag (blk : Byte) (s : State) : Step :=
  live s (s.need s.cfgFirstTagRule fun rule => .next (s.setDp (.flag (firstTagBy s.srcAsked blk rule))))

end Sys2Proof.Machine
end

