-- ==== Sys2Proof/Machine/HostPort.lean ====
section
/-! DEFINITION. The host interface (spec 43_host.md): the START command, the requests, the outputs, and the bytes each
role emits as a unit (opcode table formats host-command, request, output, rx-emit, tx-emit). The requests, outputs and
emissions are what the steps' rules perform; as instructions they are the one operation by itself (log 13). -/

namespace Sys2Proof.Machine

/-- RX.EMIT.CRQ (R142): the start byte in crc16 mode. -/
def execRxEmitCrq (s : State) : Step := live s (.next (s.emit s.codes.crq))

/-- RX.EMIT.NAK (R142, R162): the start byte in checksum mode and the negative acknowledge. -/
def execRxEmitNak (s : State) : Step := live s (.next (s.emit s.codes.nak))

/-- RX.EMIT.ACK (R145, R157). -/
def execRxEmitAck (s : State) : Step := live s (.next (s.emit s.codes.ack))

/-- RX.EMIT.ABORT (R158). -/
def execRxEmitAbort (s : State) : Step := live s (.next s.emitAbort)

/-- TX.EMIT.EOT (R197): the EOT packet, header only (R83). -/
def execTxEmitEot (s : State) : Step := live s (.next (s.emit s.codes.eot))

/-- TX.EMIT.ABORT (R201). -/
def execTxEmitAbort (s : State) : Step := live s (.next s.emitAbort)

/-- TX.EMIT.FLUSH (R190). -/
def execTxEmitFlush (s : State) : Step := live s (.next s.emitFlush)

/-- HOST.START.RX (R230, R140). -/
def execHostStartRx (cfg : SessionCfg) (s : State) : Step := live s (start cfg State.rxStart s)

/-- HOST.START.TX (R230, R190). -/
def execHostStartTx (cfg : SessionCfg) (s : State) : Step := live s (start cfg State.txStart s)

/-- HOST.RD (R235): the read becomes the outstanding request. -/
def execHostRd (kind : RdKind) (s : State) : Step := live s (.next (s.request (.rd kind)))

/-- HOST.WR (R236). -/
def execHostWr (b : Byte) (s : State) : Step := live s (.next (s.emit b))

/-- HOST.WRBUF (R236): each byte in order. -/
def execHostWrbuf (bytes : Bytes) (s : State) : Step := live s (.next (s.emitBuf bytes))

/-- HOST.FLUSH (R237): an output event; its effect on the transport is the host's. -/
def execHostFlush (s : State) : Step := live s (.next s.emitFlush)

/-- HOST.DELAY (R238). -/
def execHostDelay (s : State) : Step := live s (.next (s.request .delay))

/-- HOST.SINK (R239). -/
def execHostSink (blk : Byte) (bytes : Bytes) (s : State) : Step := live s (.next (s.request (.sink blk bytes)))

/-- HOST.SRC (R240). -/
def execHostSrc (max : Nat) (first : Bool) (s : State) : Step := live s (.next (s.request (.src max first)))

end Sys2Proof.Machine
end

