-- ==== Sys2Proof/Machine/Receiver.lean ====
section
/-! DEFINITION. The receiver's steps (spec 41_receiver.md), in the opcode table's order. Each is the pseudocode of its
rule; the trigger (phase and answer) is the decoder's (log 28). -/

namespace Sys2Proof.Machine

/-- A data header (R143, R144): `PSIZE <- INFER_SIZE(b)`, then the block number is read. -/
def dataHeader (b : Byte) (s : State) : Step :=
  .next (((s.setPsize (some (inferSize s.codes b))).setPh (some .bnum)).request (.rd .char))

/-- RX.HDR.SOH (R143). -/
def execRxHdrSoh (s : State) : Step := live s (dataHeader s.codes.soh s)

/-- RX.HDR.STX (R144). -/
def execRxHdrStx (s : State) : Step := live s (dataHeader s.codes.stx s)

/-- RX.HDR.EOT (R145). -/
def execRxHdrEot (s : State) : Step :=
  live s (.next ((s.emit s.codes.ack).terminate .endOfTransfer .endOfTransfer))

/-- RX.HDR.CAN (R146): one CAN cancels and nothing is emitted (90_conflicts.md C1). -/
def execRxHdrCan (s : State) : Step := live s (.next (s.terminate .cancelled .cancel))

/-- RX.HDR.OTHER (R147): the byte only fails the attempt. -/
def execRxHdrOther (_b : Byte) (s : State) : Step := live s (failAttempt .framingError s)

/-- RX.HDR.TIMEOUT (R148). -/
def execRxHdrTimeout (s : State) : Step := live s (failAttempt .timeout s)

/-- RX.BNUM (R149). -/
def execRxBnum (blk : Byte) (s : State) : Step :=
  live s (.next (((s.setRblk (some blk)).setPh (some .bcmp)).request (.rd .char)))

/-- RX.BCMP (R150): the pair is not checked here. -/
def execRxBcmp (cblk : Byte) (s : State) : Step :=
  live s (.next ((((s.setRcblk (some cblk)).setIdx (some 0)).setPh (some .data)).request (.rd .char)))

/-- What RX.DATA does once the byte is stored and `IDX` is `i` (R151). -/
def afterPayloadByte (i : Nat) (s : State) : Step :=
  s.need s.psize fun p =>
    if i = p then
      (s.setCidx (some 0)).need s.mode fun m =>
        .next ((((s.setCidx (some 0)).setChklen (some (checkLen m))).setPh (some .chk)).request (.rd .char))
    else .next (s.request (.rd .char))

/-- RX.DATA (R151): any byte is data. -/
def execRxData (d : Byte) (s : State) : Step :=
  live s
    (s.need s.idx fun i =>
      storeByte Config.pbufSize s.pbuf i d fun m =>
        afterPayloadByte (i + 1) ((s.setPbuf m).setIdx (some (i + 1))))

/-- What RX.CHK does once the byte is stored and `CIDX` is `i` (R152). -/
def afterCheckByte (i : Nat) (s : State) : Step :=
  s.need s.chklen fun c => if i = c then evaluate s else .next (s.request (.rd .char))

/-- RX.CHK (R152), with the evaluation of the complete packet (R154, R155, R156). -/
def execRxChk (v : Byte) (s : State) : Step :=
  live s
    (s.need s.cidx fun i =>
      storeByte Config.chkbufSize s.chkbuf i v fun m =>
        afterCheckByte (i + 1) ((s.setChkbuf m).setCidx (some (i + 1))))

/-- RX.SHORT_READ (R153): the partial packet is discarded. -/
def execRxShortRead (s : State) : Step := live s (failAttempt .timeout s)

/-- RX.SINK.OK (R157): the ACK follows the sink write. -/
def execRxSinkOk (s : State) : Step :=
  live s (s.need s.l fun len => .next ((s.addBytes len).emit s.codes.ack).awaitHeader)

/-- RX.SINK.FAIL (R158). -/
def execRxSinkFail (code : StorageCode) (s : State) : Step := live s (storageFailure code s)

/-- RX.SETTLE.ELAPSED (R141). -/
def execRxSettleElapsed (s : State) : Step :=
  live s (s.need s.mode fun m => .next (s.emit (startByte s.codes m)).awaitHeader)

end Sys2Proof.Machine
end

