-- ==== Sys2Proof/Machine/Sender.lean ====
section
/-! DEFINITION. The sender's steps (spec 42_sender.md), in the opcode table's order. Each is the pseudocode of its rule;
the trigger (phase and answer) is the decoder's (log 28). -/

namespace Sys2Proof.Machine

/-- TX.HS.CRQ (R191). -/
def execTxHsCrq (s : State) : Step := live s (handshake .crc16 s)

/-- TX.HS.NAK (R192). -/
def execTxHsNak (s : State) : Step := live s (handshake .checksum s)

/-- TX.HS.OTHER (R193): the byte is discarded, CAN too. -/
def execTxHsOther (_b : Byte) (s : State) : Step := live s (.next (s.request (.rd .hs)))

/-- TX.HS.TIMEOUT (R194): the handshake window has run out. -/
def execTxHsTimeout (s : State) : Step := live s (.next (s.terminate .failed .timeout))

/-- TX.SRC.EOF (R197). -/
def execTxSrcEof (s : State) : Step :=
  live s (.next (((s.emit s.codes.eot).setPh (some .eot)).request (.rd .resp)))

/-- TX.FRAME.SOH (R198). -/
def execTxFrameSoh (n : Nat) (bytes : Bytes) (s : State) : Step :=
  live s (frameChunk s.codes.soh Config.sohSize n bytes s)

/-- TX.FRAME.STX (R199). -/
def execTxFrameStx (n : Nat) (bytes : Bytes) (s : State) : Step :=
  live s (frameChunk s.codes.stx Config.stxSize n bytes s)

/-- TX.SRC.CONTRACT (R200): the source broke its contract. -/
def execTxSrcContract (_n : Nat) (_bytes : Bytes) (s : State) : Step :=
  live s (.next (s.raise .sourceContract))

/-- TX.SRC.FAIL (R201). -/
def execTxSrcFail (code : StorageCode) (s : State) : Step := live s (storageFailure code s)

/-- The rest of TX.RESP.ACK once the bytes are counted (R203): the next block number, and the next chunk asked for. -/
def nextBlock (s : State) : Step :=
  s.need s.blk fun blk => blockStart (s.setBlk (some (blk + 1)))

/-- TX.RESP.ACK (R203). -/
def execTxRespAck (s : State) : Step :=
  live s ((s.setStatus (some .ok)).need s.n fun n => nextBlock ((s.setStatus (some .ok)).addBytes n))

/-- TX.RESP.CAN (R204). -/
def execTxRespCan (s : State) : Step := live s (.next ((s.setPh (some .respCan)).request (.rd .resp)))

/-- TX.RESP.OTHER (R205). -/
def execTxRespOther (r : Reply) (s : State) : Step := live s (txFailAttempt (causeOf r) s)

/-- TX.RESP_CAN.CAN (R206): state FAILED, result cancel (90_conflicts.md C7). -/
def execTxRespCanCan (s : State) : Step := live s (.next (s.terminate .failed .cancel))

/-- TX.RESP_CAN.OTHER (R207): an ACK after one CAN is no acknowledgement. -/
def execTxRespCanOther (r : Reply) (s : State) : Step := live s (txFailAttempt (causeOf r) s)

/-- TX.EOT.ACK (R209). -/
def execTxEotAck (s : State) : Step := live s (.next (s.terminate .done .ok))

/-- TX.EOT.CAN (R210). -/
def execTxEotCan (s : State) : Step := live s (.next ((s.setPh (some .eotCan)).request (.rd .resp)))

/-- TX.EOT.TIMEOUT (R212). -/
def execTxEotTimeout (s : State) : Step := live s (.next (s.terminate .failed .timeout))

/-- TX.EOT.OTHER (R213). -/
def execTxEotOther (_b : Byte) (s : State) : Step := live s (.next (s.terminate .failed .error))

/-- TX.EOT_CAN.CAN (R211, first branch). -/
def execTxEotCanCan (s : State) : Step := live s (.next (s.terminate .failed .cancel))

/-- TX.EOT_CAN.OTHER (R211, second and third branch). -/
def execTxEotCanOther (r : Reply) (s : State) : Step := live s (.next (s.terminate .failed (causeOf r)))

end Sys2Proof.Machine
end

