-- ==== Sys2Proof/Machine/Dispatch.lean ====
section
/-! DEFINITION. One arm per instruction, each one call of its meaning. -/

namespace Sys2Proof.Machine

/-- The meaning of an instruction in a state. -/
def exec (i : Instr) (s : State) : Host.Outcome State Fault Refusal :=
  match i with
  | .rxHdrSoh => Sys2Proof.Machine.execRxHdrSoh s
  | .rxHdrStx => Sys2Proof.Machine.execRxHdrStx s
  | .rxHdrEot => Sys2Proof.Machine.execRxHdrEot s
  | .rxHdrCan => Sys2Proof.Machine.execRxHdrCan s
  | .rxHdrOther b => Sys2Proof.Machine.execRxHdrOther b s
  | .rxHdrTimeout => Sys2Proof.Machine.execRxHdrTimeout s
  | .rxBnum blk => Sys2Proof.Machine.execRxBnum blk s
  | .rxBcmp cblk => Sys2Proof.Machine.execRxBcmp cblk s
  | .rxData d => Sys2Proof.Machine.execRxData d s
  | .rxChk v => Sys2Proof.Machine.execRxChk v s
  | .rxShortRead => Sys2Proof.Machine.execRxShortRead s
  | .rxSinkOk => Sys2Proof.Machine.execRxSinkOk s
  | .rxSinkFail code => Sys2Proof.Machine.execRxSinkFail code s
  | .rxSettleElapsed => Sys2Proof.Machine.execRxSettleElapsed s
  | .rxEmitCrq => Sys2Proof.Machine.execRxEmitCrq s
  | .rxEmitNak => Sys2Proof.Machine.execRxEmitNak s
  | .rxEmitAck => Sys2Proof.Machine.execRxEmitAck s
  | .rxEmitAbort => Sys2Proof.Machine.execRxEmitAbort s
  | .txHsCrq => Sys2Proof.Machine.execTxHsCrq s
  | .txHsNak => Sys2Proof.Machine.execTxHsNak s
  | .txHsOther b => Sys2Proof.Machine.execTxHsOther b s
  | .txHsTimeout => Sys2Proof.Machine.execTxHsTimeout s
  | .txSrcEof => Sys2Proof.Machine.execTxSrcEof s
  | .txFrameSoh n bytes => Sys2Proof.Machine.execTxFrameSoh n bytes s
  | .txFrameStx n bytes => Sys2Proof.Machine.execTxFrameStx n bytes s
  | .txSrcContract n bytes => Sys2Proof.Machine.execTxSrcContract n bytes s
  | .txSrcFail code => Sys2Proof.Machine.execTxSrcFail code s
  | .txRespAck => Sys2Proof.Machine.execTxRespAck s
  | .txRespCan => Sys2Proof.Machine.execTxRespCan s
  | .txRespOther r => Sys2Proof.Machine.execTxRespOther r s
  | .txRespCanCan => Sys2Proof.Machine.execTxRespCanCan s
  | .txRespCanOther r => Sys2Proof.Machine.execTxRespCanOther r s
  | .txEotAck => Sys2Proof.Machine.execTxEotAck s
  | .txEotCan => Sys2Proof.Machine.execTxEotCan s
  | .txEotTimeout => Sys2Proof.Machine.execTxEotTimeout s
  | .txEotOther b => Sys2Proof.Machine.execTxEotOther b s
  | .txEotCanCan => Sys2Proof.Machine.execTxEotCanCan s
  | .txEotCanOther r => Sys2Proof.Machine.execTxEotCanOther r s
  | .txEmitEot => Sys2Proof.Machine.execTxEmitEot s
  | .txEmitAbort => Sys2Proof.Machine.execTxEmitAbort s
  | .txEmitFlush => Sys2Proof.Machine.execTxEmitFlush s
  | .hostStartRx cfg => Sys2Proof.Machine.execHostStartRx cfg s
  | .hostStartTx cfg => Sys2Proof.Machine.execHostStartTx cfg s
  | .hostRd kind => Sys2Proof.Machine.execHostRd kind s
  | .hostWr b => Sys2Proof.Machine.execHostWr b s
  | .hostWrbuf bytes => Sys2Proof.Machine.execHostWrbuf bytes s
  | .hostFlush => Sys2Proof.Machine.execHostFlush s
  | .hostDelay => Sys2Proof.Machine.execHostDelay s
  | .hostSink blk bytes => Sys2Proof.Machine.execHostSink blk bytes s
  | .hostSrc max first => Sys2Proof.Machine.execHostSrc max first s
  | .crc16Update crc b => Sys2Proof.Machine.execCrc16Update crc b s
  | .crc16 bytes seed => Sys2Proof.Machine.execCrc16 bytes seed s
  | .cksum bytes => Sys2Proof.Machine.execCksum bytes s
  | .inferSize header => Sys2Proof.Machine.execInferSize header s
  | .checkLen mode => Sys2Proof.Machine.execCheckLen mode s
  | .chkBytes payload mode => Sys2Proof.Machine.execChkBytes payload mode s
  | .verify payload mode trailing => Sys2Proof.Machine.execVerify payload mode trailing s
  | .blkchk b c => Sys2Proof.Machine.execBlkchk b c s
  | .pad data p => Sys2Proof.Machine.execPad data p s
  | .encodeFrame hdr b payload mode => Sys2Proof.Machine.execEncodeFrame hdr b payload mode s
  | .sizeSelect n => Sys2Proof.Machine.execSizeSelect n s
  | .trim payload => Sys2Proof.Machine.execTrim payload s
  | .startByte mode => Sys2Proof.Machine.execStartByte mode s
  | .firstTag blk => Sys2Proof.Machine.execFirstTag blk s

end Sys2Proof.Machine
end

