-- ==== Sys2Proof/WellFormed.lean ====
section
/-! DEFINITION. Which instructions the opcode table has: the operand ranges of its rows (spec 30_encoding.md R88, R90;
40_codec.md operands; 42_sender.md R198 to R200; 43_host.md R239, R240). -/

namespace Sys2Proof

/-- A payload of a declared size, 128 or 1024 bytes (40_codec.md R117). -/
def isPayload (payload : Bytes) : Bool :=
  payload.length == Config.sohSize || payload.length == Config.stxSize

/-- The operands of an instruction are those its row admits, in an engine with the given control codes. START is well-formed with every configuration: one out of
bounds is a command the engine answers with FAULT(bad_config) (43_host.md R230). -/
def wellFormed (codes : Codes) : Instr → Bool
  | .rxHdrSoh | .rxHdrStx | .rxHdrEot | .rxHdrCan | .rxHdrTimeout => true
  | .rxHdrOther b =>
    b != codes.soh && b != codes.stx && b != codes.eot && b != codes.can
  | .rxBnum _ | .rxBcmp _ | .rxData _ | .rxChk _ => true
  | .rxShortRead | .rxSinkOk | .rxSinkFail _ | .rxSettleElapsed => true
  | .rxEmitCrq | .rxEmitNak | .rxEmitAck | .rxEmitAbort => true
  | .txHsCrq | .txHsNak | .txHsTimeout | .txSrcEof => true
  | .txHsOther b => b != codes.crq && b != codes.nak
  | .txFrameSoh n d => decide (1 ≤ n) && decide (n ≤ Config.sohSize) && d.length == n
  | .txFrameStx n d => decide (Config.sohSize < n) && decide (n ≤ Config.stxSize) && d.length == n
  | .txSrcContract n d => decide (Config.maxChunk < n) || d.length != n
  | .txSrcFail _ | .txRespAck | .txRespCan | .txRespCanCan => true
  | .txRespOther .timeout | .txRespCanOther .timeout | .txEotCanOther .timeout => true
  | .txRespOther (.byte b) => b != codes.ack && b != codes.can
  | .txRespCanOther (.byte b) => b != codes.can
  | .txEotAck | .txEotCan | .txEotTimeout | .txEotCanCan => true
  | .txEotOther b => b != codes.ack && b != codes.can
  | .txEotCanOther (.byte b) => b != codes.can
  | .txEmitEot | .txEmitAbort | .txEmitFlush => true
  | .hostStartRx _ | .hostStartTx _ | .hostRd _ | .hostWr _ | .hostWrbuf _ | .hostFlush | .hostDelay => true
  | .hostSink _ bytes => decide (bytes.length ≤ Config.maxChunk)
  | .hostSrc max _ => max == Config.maxChunk
  | .crc16Update _ _ | .crc16 _ _ | .cksum _ | .inferSize _ | .checkLen _ => true
  | .chkBytes payload _ => isPayload payload
  | .verify payload mode trailing => isPayload payload && trailing.length == Machine.checkLen mode
  | .blkchk _ _ => true
  | .pad data p =>
    (p == Config.sohSize || p == Config.stxSize) && decide (1 ≤ data.length) && decide (data.length ≤ p)
  | .encodeFrame hdr _ payload _ =>
    (hdr == codes.soh || hdr == codes.stx) && payload.length == Machine.inferSize codes hdr
  | .sizeSelect _ | .trim _ | .startByte _ | .firstTag _ => true

end Sys2Proof
end

