-- ==== Sys2Proof/Decode.lean ====
section
/-! DEFINITION. The decode tables (spec 30_encoding.md R88 to R91, 43_host.md R233), total on every encoding and
rejecting by name, and after them the encoder. A byte has its meaning only from its position (R89, R92) and from the
engine's control codes. -/

namespace Sys2Proof

/-- The header position (R88): every one of the 256 values. -/
def decodeHeader (codes : Codes) (b : Byte) : Instr :=
  if b = codes.soh then .rxHdrSoh
  else if b = codes.stx then .rxHdrStx
  else if b = codes.eot then .rxHdrEot
  else if b = codes.can then .rxHdrCan
  else .rxHdrOther b

/-- The handshake position (R90). -/
def decodeHandshake (codes : Codes) (b : Byte) : Instr :=
  if b = codes.crq then .txHsCrq
  else if b = codes.nak then .txHsNak
  else .txHsOther b

/-- The response to a data packet (R90). -/
def decodeResponse (codes : Codes) (b : Byte) : Instr :=
  if b = codes.ack then .txRespAck
  else if b = codes.can then .txRespCan
  else .txRespOther (.byte b)

/-- The byte after one CAN in answer to a data packet (R90). -/
def decodeResponseCan (codes : Codes) (b : Byte) : Instr :=
  if b = codes.can then .txRespCanCan else .txRespCanOther (.byte b)

/-- The response to EOT (R90). -/
def decodeEot (codes : Codes) (b : Byte) : Instr :=
  if b = codes.ack then .txEotAck
  else if b = codes.can then .txEotCan
  else .txEotOther b

/-- The byte after one CAN in answer to EOT (R90). -/
def decodeEotCan (codes : Codes) (b : Byte) : Instr :=
  if b = codes.can then .txEotCanCan else .txEotCanOther (.byte b)

/-- The source's chunk (42_sender.md R197 to R200). -/
def decodeChunk (n : Nat) (bytes : Bytes) : Instr :=
  if Config.maxChunk < n ∨ bytes.length ≠ n then .txSrcContract n bytes
  else if n = 0 then .txSrcEof
  else if n ≤ Config.sohSize then .txFrameSoh n bytes
  else .txFrameStx n bytes

/-- An answer at a phase: the triggers of 41_receiver.md and 42_sender.md. An answer no rule of the phase takes is
rejected (43_host.md R233, R234). -/
def decodeAnswer (codes : Codes) (p : Phase) (a : Answer) : Except DecodeReject Instr :=
  match p, a with
  | .settle, .elapsed => .ok .rxSettleElapsed
  | .hdr, .byte b => .ok (decodeHeader codes b)
  | .hdr, .timeout => .ok .rxHdrTimeout
  | .bnum, .byte b => .ok (.rxBnum b)
  | .bcmp, .byte b => .ok (.rxBcmp b)
  | .data, .byte b => .ok (.rxData b)
  | .chk, .byte b => .ok (.rxChk b)
  | .bnum, .timeout => .ok .rxShortRead
  | .bcmp, .timeout => .ok .rxShortRead
  | .data, .timeout => .ok .rxShortRead
  | .chk, .timeout => .ok .rxShortRead
  | .sink, .sinkOk => .ok .rxSinkOk
  | .sink, .sinkFail c => .ok (.rxSinkFail c)
  | .hs, .byte b => .ok (decodeHandshake codes b)
  | .hs, .timeout => .ok .txHsTimeout
  | .src, .srcData n bytes => .ok (decodeChunk n bytes)
  | .src, .srcFail c => .ok (.txSrcFail c)
  | .resp, .byte b => .ok (decodeResponse codes b)
  | .resp, .timeout => .ok (.txRespOther .timeout)
  | .respCan, .byte b => .ok (decodeResponseCan codes b)
  | .respCan, .timeout => .ok (.txRespCanOther .timeout)
  | .eot, .byte b => .ok (decodeEot codes b)
  | .eot, .timeout => .ok .txEotTimeout
  | .eotCan, .byte b => .ok (decodeEotCan codes b)
  | .eotCan, .timeout => .ok (.txEotCanOther .timeout)
  | _, _ => .error .badAnswer

/-- What the receiver emits as a unit (R84, R85; opcode table format rx-emit). -/
def decodeRxEmit (codes : Codes) (o : List Out) : Except DecodeReject Instr :=
  if o = [.wr codes.crq] then .ok .rxEmitCrq
  else if o = [.wr codes.nak] then .ok .rxEmitNak
  else if o = [.wr codes.ack] then .ok .rxEmitAck
  else if o = [.wr codes.can, .wr codes.can] then .ok .rxEmitAbort
  else .error .notAnEmission

/-- What the sender emits as a unit beside data frames (R83, R84; opcode table format tx-emit). -/
def decodeTxEmit (codes : Codes) (o : List Out) : Except DecodeReject Instr :=
  if o = [.wr codes.eot] then .ok .txEmitEot
  else if o = [.wr codes.can, .wr codes.can] then .ok .txEmitAbort
  else if o = [.flush] then .ok .txEmitFlush
  else .error .notAnEmission

/-- A request of the engine (43_host.md R233). -/
def decodeRequest : Request → Except DecodeReject Instr
  | .delay => .ok .hostDelay
  | .rd kind => .ok (.hostRd kind)
  | .sink blk bytes => if bytes.length ≤ Config.maxChunk then .ok (.hostSink blk bytes) else .error .badRequest
  | .src max first => if max = Config.maxChunk then .ok (.hostSrc max first) else .error .badRequest

/-- The decoder: what stands at a place, to the instruction of that row. -/
def decode (codes : Codes) : Encoded → Except DecodeReject Instr
  | .command (.startRx cfg) => .ok (.hostStartRx cfg)
  | .command (.startTx cfg) => .ok (.hostStartTx cfg)
  | .command (.answer _) => .error .notACommand
  | .answerAt p a => decodeAnswer codes p a
  | .rxEmit o => decodeRxEmit codes o
  | .txEmit o => decodeTxEmit codes o
  | .output (.wr b) => .ok (.hostWr b)
  | .output (.wrbuf bytes) => .ok (.hostWrbuf bytes)
  | .output .flush => .ok .hostFlush
  | .request q => decodeRequest q

/-- A reply as an answer of the environment. -/
def Reply.toAnswer : Reply → Answer
  | .byte b => .byte b
  | .timeout => .timeout

/-- The encoder: every encoding of a well-formed instruction, from the opcode table's "format" and "match" columns. All
rows with an encoding have one, but for RX.SHORT_READ, which stands at four phases. The codec's operations are
"internal" in the table and have none. -/
def encode (codes : Codes) : Instr → List Encoded
  | .rxHdrSoh => [.answerAt .hdr (.byte codes.soh)]
  | .rxHdrStx => [.answerAt .hdr (.byte codes.stx)]
  | .rxHdrEot => [.answerAt .hdr (.byte codes.eot)]
  | .rxHdrCan => [.answerAt .hdr (.byte codes.can)]
  | .rxHdrOther b => [.answerAt .hdr (.byte b)]
  | .rxHdrTimeout => [.answerAt .hdr .timeout]
  | .rxBnum b => [.answerAt .bnum (.byte b)]
  | .rxBcmp b => [.answerAt .bcmp (.byte b)]
  | .rxData b => [.answerAt .data (.byte b)]
  | .rxChk b => [.answerAt .chk (.byte b)]
  | .rxShortRead =>
    [.answerAt .bnum .timeout, .answerAt .bcmp .timeout, .answerAt .data .timeout, .answerAt .chk .timeout]
  | .rxSinkOk => [.answerAt .sink .sinkOk]
  | .rxSinkFail c => [.answerAt .sink (.sinkFail c)]
  | .rxSettleElapsed => [.answerAt .settle .elapsed]
  | .rxEmitCrq => [.rxEmit [.wr codes.crq]]
  | .rxEmitNak => [.rxEmit [.wr codes.nak]]
  | .rxEmitAck => [.rxEmit [.wr codes.ack]]
  | .rxEmitAbort => [.rxEmit [.wr codes.can, .wr codes.can]]
  | .txHsCrq => [.answerAt .hs (.byte codes.crq)]
  | .txHsNak => [.answerAt .hs (.byte codes.nak)]
  | .txHsOther b => [.answerAt .hs (.byte b)]
  | .txHsTimeout => [.answerAt .hs .timeout]
  | .txSrcEof => [.answerAt .src (.srcData 0 [])]
  | .txFrameSoh n bytes => [.answerAt .src (.srcData n bytes)]
  | .txFrameStx n bytes => [.answerAt .src (.srcData n bytes)]
  | .txSrcContract n bytes => [.answerAt .src (.srcData n bytes)]
  | .txSrcFail c => [.answerAt .src (.srcFail c)]
  | .txRespAck => [.answerAt .resp (.byte codes.ack)]
  | .txRespCan => [.answerAt .resp (.byte codes.can)]
  | .txRespOther r => [.answerAt .resp r.toAnswer]
  | .txRespCanCan => [.answerAt .respCan (.byte codes.can)]
  | .txRespCanOther r => [.answerAt .respCan r.toAnswer]
  | .txEotAck => [.answerAt .eot (.byte codes.ack)]
  | .txEotCan => [.answerAt .eot (.byte codes.can)]
  | .txEotTimeout => [.answerAt .eot .timeout]
  | .txEotOther b => [.answerAt .eot (.byte b)]
  | .txEotCanCan => [.answerAt .eotCan (.byte codes.can)]
  | .txEotCanOther r => [.answerAt .eotCan r.toAnswer]
  | .txEmitEot => [.txEmit [.wr codes.eot]]
  | .txEmitAbort => [.txEmit [.wr codes.can, .wr codes.can]]
  | .txEmitFlush => [.txEmit [.flush]]
  | .hostStartRx cfg => [.command (.startRx cfg)]
  | .hostStartTx cfg => [.command (.startTx cfg)]
  | .hostRd kind => [.request (.rd kind)]
  | .hostWr b => [.output (.wr b)]
  | .hostWrbuf bytes => [.output (.wrbuf bytes)]
  | .hostFlush => [.output .flush]
  | .hostDelay => [.request .delay]
  | .hostSink blk bytes => [.request (.sink blk bytes)]
  | .hostSrc max first => [.request (.src max first)]
  | .crc16Update _ _ | .crc16 _ _ | .cksum _ | .inferSize _ | .checkLen _ | .chkBytes _ _ | .verify _ _ _ => []
  | .blkchk _ _ | .pad _ _ | .encodeFrame _ _ _ _ | .sizeSelect _ | .trim _ | .startByte _ | .firstTag _ => []

/-- The place a byte of the opcode table is read at when only the byte is given (DESIGN CHOICE, log 21). Several rows
share a byte and only the position tells them apart (R89, R92), so each byte is read at one position the engine decodes
at: header codes at the header position, start bytes at the handshake, ACK as the response to a data packet. The word 0
is read as the number in `SrcData(0)`, the one row to which the table gives a field and no code. -/
def placeOfByte (codes : Codes) (b : Byte) : Encoded :=
  if b = 0 then .answerAt .src (.srcData 0 [])
  else if b = codes.crq then .answerAt .hs (.byte b)
  else if b = codes.nak then .answerAt .hs (.byte b)
  else if b = codes.ack then .answerAt .resp (.byte b)
  else .answerAt .hdr (.byte b)

/-- The place of an instruction that the opcode table gives as a number of `nbits` bits, the first byte lowest: one byte
is placed by `placeOfByte`, two bytes are an emission of the receiver (format rx-emit). Other lengths have no row. -/
def placeOfWord (codes : Codes) (nbits w : Nat) : Option Encoded :=
  if nbits = 8 then some (placeOfByte codes (BitVec.ofNat 8 w))
  else if nbits = 16 then some (.rxEmit [.wr (BitVec.ofNat 8 w), .wr (BitVec.ofNat 8 (w / 256))])
  else none

/-- The instruction the decoder reads from an instruction whose bits are `w`, at the control codes the opcode table is
written with, the defaults (log 8). -/
def decodeTableWord (nbits w : Nat) : Option Instr :=
  match placeOfWord Codes.default nbits w with
  | none => none
  | some e =>
    match decode Codes.default e with
    | .ok i => some i
    | .error _ => none

end Sys2Proof
end

