-- ==== Sys2Proof/Machine/Fetch.lean ====
section
/-! DEFINITION. How the engine comes to its next instruction (spec 43_host.md R230, R233, R234): the environment's next
event, checked against the outstanding request and decoded at the phase; and the placing of an instruction for the
next step. -/

namespace Sys2Proof.Machine

/-- The legal answers to a request (R233). -/
def legalAnswer : Request → Answer → Bool
  | .delay, .elapsed => true
  | .rd _, .byte _ => true
  | .rd _, .timeout => true
  | .sink _ _, .sinkOk => true
  | .sink _ _, .sinkFail _ => true
  | .src _ _, .srcData _ _ => true
  | .src _ _, .srcFail _ => true
  | _, _ => false

/-- What a step finds to do. -/
inductive Fetched where
  /-- the engine is faulted (R262) -/
  | halted
  /-- the environment has given no event: the engine waits (R234, log 5) -/
  | waiting
  /-- an instruction, to be run in this state -/
  | run (i : Instr) (s : State)
  /-- an event with no meaning, which leaves this state (R234) -/
  | rejected (s : State)
deriving DecidableEq, Repr

/-- An answer: legal for the outstanding request or else FAULT(bad_answer); then it clears the request (10_state.md
R35, log 6) and is decoded at the phase (logs 7, 28). -/
def fetchAnswer (a : Answer) (s : State) : Fetched :=
  match s.req with
  | none => .rejected (s.raise .badAnswer)
  | some q =>
    if legalAnswer q a then
      match s.ph with
      | none => .rejected ((s.setReq none).raise .unwritten)
      | some p =>
        match decode s.codes (.answerAt p a) with
        | .ok i => .run i (s.setReq none)
        | .error _ => .rejected ((s.setReq none).raise .badAnswer)
    else .rejected (s.raise .badAnswer)

/-- A host command is taken at any time (60_exceptions.md R258); START itself checks `BUSY`. -/
def fetchCommand (e : Event) (s : State) : Fetched :=
  match decode s.codes (.command e) with
  | .ok i => .run i s
  | .error _ => .rejected (s.raise .badAnswer)

/-- One event, already taken from the inbox. -/
def fetchEvent (e : Event) (s : State) : Fetched :=
  match e with
  | .answer a => fetchAnswer a s
  | .startRx cfg => fetchCommand (.startRx cfg) s
  | .startTx cfg => fetchCommand (.startTx cfg) s

/-- What the next step does: nothing if the engine is faulted, wait if no event has come, else take the next event. -/
def fetch (s : State) : Fetched :=
  if s.faulted then .halted
  else
    match s.inbox with
    | [] => .waiting
    | e :: rest => fetchEvent e (s.setInbox rest)

/-! ### Placing an instruction (log 22) -/

/-- The role whose phase this is (10_state.md R24); `P_TERM` belongs to both and is given to none. -/
def roleOf : Phase → Role
  | .settle | .hdr | .bnum | .bcmp | .data | .chk | .sink => .rx
  | .hs | .src | .resp | .respCan | .eot | .eotCan => .tx
  | .term => .none

/-- The outstanding request of a phase (10_state.md R24). -/
def requestOf (s : State) : Phase → Option Request
  | .settle => some .delay
  | .hdr | .bnum | .bcmp | .data | .chk => some (.rd .char)
  | .sink => some (.sink (s.blk.getD 0) [])
  | .hs => some (.rd .hs)
  | .src => some (.src Config.maxChunk true)
  | .resp | .respCan | .eot | .eotCan => some (.rd .resp)
  | .term => none

/-- A session is running in phase `p`: the sequencing registers say so, and each register that a step of the session
reads and that holds no value is given one a session could hold. A register that holds a value keeps it. -/
def State.inPhase (s : State) (p : Phase) : State :=
  { s with
    busy := true
    role := roleOf p
    rxst := s.rxst <|> some .awaitStart
    txst := s.txst <|> some .awaitHandshake
    ph := some p
    req := requestOf s p
    mode := s.mode <|> some .crc16
    blk := s.blk <|> some 1
    blkset := s.blkset <|> some false
    retry := s.retry <|> some 1
    tretry := s.tretry <|> some 1
    psize := s.psize <|> some Config.sohSize
    idx := s.idx <|> some 0
    rblk := s.rblk <|> some 1
    rcblk := s.rcblk <|> some 0xFE
    cidx := s.cidx <|> some 0
    chklen := s.chklen <|> some 2
    l := s.l <|> some 0
    n := s.n <|> some 1
    frame := s.frame <|> some []
    flen := s.flen <|> some 0
    cfgRetryMax := s.cfgRetryMax <|> some 1
    cfgTxRetryMax := s.cfgTxRetryMax <|> some 1
    cfgRxInitMode := s.cfgRxInitMode <|> some .crc16
    cfgRxText := s.cfgRxText <|> some false
    cfgFirstTagRule := s.cfgFirstTagRule <|> some .wrapped8
    faulted := false
    faultReason := none }

/-- The state whose next step decodes what stands at `e`. An emission is no event: it is placed as the answer whose step
emits it, the sink's failure for the receiver (R158) and the source's for the sender (R201). Requests and outputs have no
such place. -/
def State.placeEncoded (s : State) : Encoded → State
  | .answerAt p a => (s.inPhase p).setInbox (.answer a :: s.inbox)
  | .command e => s.setInbox (e :: s.inbox)
  | .rxEmit _ => (s.inPhase .sink).setInbox (.answer (.sinkFail storageCodeZero) :: s.inbox)
  | .txEmit _ => (s.inPhase .src).setInbox (.answer (.srcFail storageCodeZero) :: s.inbox)
  | .output _ | .request _ => s

end Sys2Proof.Machine
end

