-- ==== Sys2Proof/Machine/Step.lean ====
section
/-! DEFINITION. One step of the engine (spec 43_host.md R234), and the placing of a table word for the next step. -/

namespace Sys2Proof.Machine

/-- One step: the environment's next event is taken and its instruction is run. A faulted engine takes no step (60_exceptions.md
R262); with no event the engine waits and every register keeps its value (R263, log 5). -/
def step (s : State) : Host.Outcome State Fault Refusal :=
  match fetch s with
  | .halted => .fault .engineFaulted
  | .waiting => .next s
  | .run i s' => exec i s'
  | .rejected s' => .next s'

/-- The state whose next step runs the instruction that the table gives as `nbits` bits `w` (log 22). -/
def State.withFetchWord (s : State) (nbits w : Nat) : State :=
  match placeOfWord s.codes nbits w with
  | some e => s.placeEncoded e
  | none => s

end Sys2Proof.Machine
end

