-- ==== Sys2Proof/Safety.lean ====
section
/-! DEFINITION. What a well-behaved environment is, and the invariant of the engine: which registers hold what at each
phase (spec 10_state.md R22 to R43, 43_host.md R233, R234, 60_exceptions.md R251, R262). -/

namespace Sys2Proof.Safety

open Sys2Proof.Machine

/-- Every byte of the array below index `k` has a value. -/
def Filled (m : List Host.Cell) (k : Nat) : Prop := ∀ a, a < k → (Memory.read m a).isSome = true

/-- A payload size (R30). -/
def IsSize (p : Nat) : Prop := p = Config.sohSize ∨ p = Config.stxSize

/-! ### The environment's contract (R233, R234, R240, R287) -/

/-- The source keeps its contract: at most 1024 bytes, as many as it says (R240). -/
def sourceKeepsContract : Answer → Bool
  | .srcData n bytes => decide (n ≤ Config.maxChunk) && bytes.length == n
  | _ => true

/-- An event the environment may give in this state: START with a legal configuration when the engine is idle, or a legal
answer to the outstanding request. -/
def legalEvent (s : State) : Event → Bool
  | .startRx cfg => !s.busy && inBounds cfg
  | .startTx cfg => !s.busy && inBounds cfg
  | .answer a =>
    match s.req with
    | some q => legalAnswer q a && sourceKeepsContract a
    | none => false

/-! ### The invariant -/

/-- A receiver session is running: its budget is within 1..`CFG_RETRY_MAX` (R27), and `BLKSET`, `BLK` and `RXST` agree
(R22, R26). -/
def RxRunning (s : State) : Prop :=
  s.busy = true ∧ s.role = .rx ∧ s.result = none ∧ s.storageCode = none ∧ s.status.isSome = true ∧
  s.mode.isSome = true ∧ s.cfgRxText.isSome = true ∧
  (∃ r k, s.retry = some r ∧ s.cfgRetryMax = some k ∧ 1 ≤ r ∧ r ≤ k) ∧
  ((s.blkset = some false ∧ s.blk = none ∧ s.rxst = some .awaitStart) ∨
    (s.blkset = some true ∧ s.blk.isSome = true ∧ s.rxst = some .receiving))

/-- The receiver is reading a packet of size `p` whose two block-number bytes have come (R30, R31). -/
def InPacket (s : State) (p : Nat) : Prop :=
  s.psize = some p ∧ IsSize p ∧ s.rblk.isSome = true ∧ s.rcblk.isSome = true

/-- A sender session is running (R28, R41). -/
def TxRunning (s : State) : Prop :=
  s.busy = true ∧ s.role = .tx ∧ s.result = none ∧ s.storageCode = none ∧ s.status.isSome = true ∧
  s.cfgFirstTagRule.isSome = true ∧ (∃ k, s.cfgTxRetryMax = some k ∧ 1 ≤ k)

/-- The sender's handshake is over (R23, R25). -/
def TxSending (s : State) : Prop :=
  TxRunning s ∧ s.txst = some .sending ∧ s.mode.isSome = true ∧ s.blk.isSome = true ∧ s.srcAsked = true

/-- `FRAME` is the packet of the current block: the chunk of `N` bytes, padded, under the current `BLK` and `MODE`; `FLEN`
is its length, and the budget is within 1..`CFG_TX_RETRY_MAX` (R28, R34, R215). -/
def TxFrame (s : State) : Prop :=
  ∃ (b : Byte) (m : Mode) (d : Bytes) (hdr : Byte) (p k r : Nat),
    s.blk = some b ∧ s.mode = some m ∧ s.n = some d.length ∧ 1 ≤ d.length ∧
    ((hdr = s.codes.soh ∧ p = Config.sohSize ∧ d.length ≤ Config.sohSize) ∨
      (hdr = s.codes.stx ∧ p = Config.stxSize ∧ Config.sohSize < d.length ∧ d.length ≤ Config.stxSize)) ∧
    s.frame = some (encodeFrame hdr b (pad d p) m) ∧ s.flen = some (3 + p + checkLen m) ∧
    s.cfgTxRetryMax = some k ∧ s.tretry = some r ∧ 1 ≤ r ∧ r ≤ k

/-- The terminal state and the result code a receiver session can end with (R251). -/
def RxEnd (t : RxSt) (c : Result) : Prop :=
  (t = .endOfTransfer ∧ c = .endOfTransfer) ∨ (t = .cancelled ∧ c = .cancel) ∨
  (t = .failed ∧ (c = .timeout ∨ c = .crcError ∨ c = .framingError ∨ c = .storageError))

/-- The terminal state and the result code a sender session can end with (R251, 90_conflicts.md C7). -/
def TxEnd (t : TxSt) (c : Result) : Prop :=
  (t = .done ∧ c = .ok) ∨
  (t = .failed ∧ (c = .timeout ∨ c = .cancel ∨ c = .error ∨ c = .storageError))

/-- The session is over (R254): the last status is the result, a failure is the last error, and a storage code is there
just when storage failed. -/
def Ended (s : State) : Prop :=
  s.busy = false ∧ s.req = none ∧
  ∃ c, s.result = some c ∧ s.status = some c ∧
    (c ≠ .ok → c ≠ .endOfTransfer → s.lastError = some c) ∧
    (s.storageCode.isSome = true ↔ c = .storageError) ∧
    ((s.role = .rx ∧ ∃ t, s.rxst = some t ∧ RxEnd t c) ∨ (s.role = .tx ∧ ∃ t, s.txst = some t ∧ TxEnd t c))

/-- No session has begun since power-on (R280). -/
def PoweredOn (s : State) : Prop :=
  s.busy = false ∧ s.role = .none ∧ s.req = none ∧ s.result = none ∧ s.storageCode = none ∧ s.bytes = 0

/-- What each phase guarantees: the outstanding request of R24, and a value in every register the phase's rules read
(R43). -/
def PhaseInv (s : State) : Option Phase → Prop
  | none => PoweredOn s
  | some .settle => RxRunning s ∧ s.blkset = some false ∧ s.req = some .delay
  | some .hdr => RxRunning s ∧ s.req = some (.rd .char)
  | some .bnum => RxRunning s ∧ s.req = some (.rd .char) ∧ ∃ p, s.psize = some p ∧ IsSize p
  | some .bcmp =>
    RxRunning s ∧ s.req = some (.rd .char) ∧ (∃ p, s.psize = some p ∧ IsSize p) ∧ s.rblk.isSome = true
  | some .data =>
    RxRunning s ∧ s.req = some (.rd .char) ∧
    ∃ p i, InPacket s p ∧ s.idx = some i ∧ i < p ∧ Filled s.pbuf i
  | some .chk =>
    RxRunning s ∧ s.req = some (.rd .char) ∧
    ∃ p m i, InPacket s p ∧ Filled s.pbuf p ∧ s.mode = some m ∧ s.chklen = some (checkLen m) ∧
      s.cidx = some i ∧ i < checkLen m ∧ Filled s.chkbuf i
  | some .sink =>
    RxRunning s ∧ s.blkset = some true ∧
    ∃ b bytes, s.blk = some b ∧ s.l = some bytes.length ∧ bytes.length ≤ Config.stxSize ∧
      s.req = some (.sink b bytes)
  | some .hs =>
    TxRunning s ∧ s.txst = some .awaitHandshake ∧ s.mode = none ∧ s.srcAsked = false ∧ s.req = some (.rd .hs)
  | some .src => TxSending s ∧ ∃ first, s.req = some (.src Config.maxChunk first)
  | some .resp => TxSending s ∧ s.req = some (.rd .resp) ∧ TxFrame s
  | some .respCan => TxSending s ∧ s.req = some (.rd .resp) ∧ TxFrame s
  | some .eot => TxSending s ∧ s.req = some (.rd .resp)
  | some .eotCan => TxSending s ∧ s.req = some (.rd .resp)
  | some .term => Ended s

/-- The engine's invariant. The control codes are distinct, as every engine of the spec has them (R80, D2); the buffers keep
their canonical form; no register without a value has been read (R43); and while no fault is up, the phase's guarantee
holds. -/
def Inv (s : State) : Prop :=
  s.codes.distinct = true ∧
  Memory.wf Config.pbufSize s.pbuf = true ∧ Memory.wf Config.chkbufSize s.chkbuf = true ∧
  s.faultReason ≠ some .unwritten ∧ (s.faulted = false → PhaseInv s s.ph)

/-! ### Groups of instructions and of registers, for the frame statements -/

/-- The steps of the receiver (41_receiver.md). -/
def receiverStep : Instr → Bool
  | .rxHdrSoh | .rxHdrStx | .rxHdrEot | .rxHdrCan | .rxHdrOther _ | .rxHdrTimeout => true
  | .rxBnum _ | .rxBcmp _ | .rxData _ | .rxChk _ | .rxShortRead => true
  | .rxSinkOk | .rxSinkFail _ | .rxSettleElapsed => true
  | _ => false

/-- The steps of the sender (42_sender.md). -/
def senderStep : Instr → Bool
  | .txHsCrq | .txHsNak | .txHsOther _ | .txHsTimeout => true
  | .txSrcEof | .txFrameSoh _ _ | .txFrameStx _ _ | .txSrcContract _ _ | .txSrcFail _ => true
  | .txRespAck | .txRespCan | .txRespOther _ | .txRespCanCan | .txRespCanOther _ => true
  | .txEotAck | .txEotCan | .txEotTimeout | .txEotOther _ | .txEotCanCan | .txEotCanOther _ => true
  | _ => false

/-- The host commands (43_host.md R230). -/
def startCommand : Instr → Bool
  | .hostStartRx _ | .hostStartTx _ => true
  | _ => false

/-- The configuration registers are the same in both states (R41). -/
def SameConfig (s t : State) : Prop :=
  t.cfgRetryMax = s.cfgRetryMax ∧ t.cfgTxRetryMax = s.cfgTxRetryMax ∧ t.cfgRxInitMode = s.cfgRxInitMode ∧
  t.cfgRxText = s.cfgRxText ∧ t.cfgFirstTagRule = s.cfgFirstTagRule

/-- The registers that serve only the sender are the same in both states; for `TXST`, which the end of a session writes by
`ROLE` (R254), see `ReceiverStepFrame`. -/
def SameSender (s t : State) : Prop :=
  t.tretry = s.tretry ∧ t.n = s.n ∧ t.frame = s.frame ∧ t.flen = s.flen ∧ t.srcAsked = s.srcAsked

/-- The registers that serve only the receiver are the same in both states, and so is every byte of its buffers; for `RXST`,
which the end of a session writes by `ROLE` (R254), see `SenderStepFrame`. -/
def SameReceiver (s t : State) : Prop :=
  t.blkset = s.blkset ∧ t.retry = s.retry ∧ t.psize = s.psize ∧ t.idx = s.idx ∧ t.rblk = s.rblk ∧
  t.rcblk = s.rcblk ∧ t.cidx = s.cidx ∧ t.chklen = s.chklen ∧ t.l = s.l ∧
  (∀ a, Memory.read t.pbuf a = Memory.read s.pbuf a) ∧ (∀ a, Memory.read t.chkbuf a = Memory.read s.chkbuf a)

/-- What no step of a session changes: the role, the configuration, the engine's parameters, and the model's own inbox
and result port. -/
def SameSession (s t : State) : Prop :=
  t.role = s.role ∧ SameConfig s t ∧ t.bytesWidth = s.bytesWidth ∧ t.codes = s.codes ∧ t.inbox = s.inbox ∧ t.dp = s.dp

/-! ### Storage codes are opaque to the engine (R7, R39, D9; log 9) -/

/-- An answer with its storage code, if it has one, replaced. -/
def renameAnswer (f : StorageCode → StorageCode) : Answer → Answer
  | .sinkFail code => .sinkFail (f code)
  | .srcFail code => .srcFail (f code)
  | .elapsed => .elapsed
  | .byte b => .byte b
  | .timeout => .timeout
  | .sinkOk => .sinkOk
  | .srcData n bytes => .srcData n bytes

/-- An event with its storage code, if it has one, replaced. -/
def renameEvent (f : StorageCode → StorageCode) : Event → Event
  | .answer a => .answer (renameAnswer f a)
  | .startRx cfg => .startRx cfg
  | .startTx cfg => .startTx cfg

/-- A state with every storage code in it replaced: the recorded one and those still to come. -/
def renameState (f : StorageCode → StorageCode) (s : State) : State :=
  { s with storageCode := s.storageCode.map f, inbox := s.inbox.map (renameEvent f) }

/-- An outcome with every storage code in it replaced. -/
def renameOutcome (f : StorageCode → StorageCode) : Step → Step
  | .next t => .next (renameState f t)
  | .fault e => .fault e
  | .refused r => .refused r

end Sys2Proof.Safety
end

