-- ==== Sys2Proof/Certificates/Slice0/Obligations.lean ====
section
/-! DEFINITION. The statements about the engine, from the numbered rules of spec/. Each docstring names the rule it
formalises, or says what it is derived from. -/

open Sys2Proof Sys2Proof.Machine Sys2Proof.Safety

/-! ## What the rules compute, written from the spec's text and used by the statements below -/

namespace Sys2Proof.Expected

/-- One step of the CRC as R110 writes it. -/
def crcStep (crc : Word) (b : Byte) : Word :=
  (List.range 8).foldl (fun x _ => if x.getLsbD 15 then (x <<< 1) ^^^ (0x1021 : Word) else x <<< 1)
    (crc ^^^ (b.setWidth 16 <<< 8))

/-- The verification field as R117 writes it: bits 15..8 of the CRC, then bits 7..0. -/
def chkField (payload : Bytes) : Mode → Bytes
  | .checksum => [cksum payload]
  | .crc16 => [BitVec.ofNat 8 ((crc16 payload 0).toNat / 256), BitVec.ofNat 8 ((crc16 payload 0).toNat % 256)]

/-- The end of a receiver session (R254, which tests ROLE: the statements that use it say ROLE = rx). -/
def rxEnded (t : RxSt) (code : Result) (err : Option Result) (s : State) : State :=
  { s with
    rxst := some t, status := some code, result := some code, lastError := err, busy := false, ph := some .term,
    req := none }

/-- The end of a sender session (R254, which tests ROLE: the statements that use it say ROLE = tx). -/
def txEnded (t : TxSt) (code : Result) (err : Option Result) (s : State) : State :=
  { s with
    txst := some t, status := some code, result := some code, lastError := err, busy := false, ph := some .term,
    req := none }

/-- What a failed attempt leaves (R159 to R162), for a budget of `r`, a ceiling of `k`, `BLKSET` and `MODE` as given. -/
def failedAttempt (cause : Result) (r k : Nat) (set : Bool) (m : Mode) (s : State) : State :=
  if r = 1 then
    if (cause = .timeout ∨ cause = .framingError) ∧ set = false ∧ m = .crc16 then
      { s with
        status := some cause, mode := some .checksum, retry := some k, out := s.out ++ [.wr s.codes.nak], ph := some .hdr,
        req := some (.rd .char) }
    else rxEnded .failed cause (some cause) { s with retry := some 0 }
  else
    { s with
      status := some cause, retry := some (r - 1),
      out := s.out ++ [.wr (if cause ≠ .crcError ∧ set = false ∧ m = .crc16 then s.codes.crq else s.codes.nak)],
      ph := some .hdr, req := some (.rd .char) }

/-- What a failed transmission leaves (R208), for a budget of `r` and the frame `f`. -/
def failedTransmission (cause : Result) (r : Nat) (f : Bytes) (s : State) : State :=
  if r = 1 then txEnded .failed .timeout (some .timeout) { s with tretry := some 0 }
  else
    { s with
      status := some cause, tretry := some (r - 1), out := s.out ++ f.map .wr, ph := some .resp,
      req := some (.rd .resp) }

/-- The cause of a failed response: `timeout` for a Timeout answer, else `error` (R205, R207, R211). -/
def cause : Reply → Result
  | .timeout => .timeout
  | .byte _ => .error

end Sys2Proof.Expected

open Sys2Proof.Expected

/-! ## The codec -/

/-- R110 and R111: one byte step, a byte sequence, and their corner cases. -/
def Obligations.CrcFollowsItsPseudocode : Prop :=
  (∀ crc b, crc16Update crc b = crcStep crc b) ∧
  (∀ bytes seed, crc16 bytes seed = bytes.foldl crcStep seed) ∧
  (∀ seed, crc16 [] seed = seed) ∧ (∀ k, crc16 (List.replicate k 0x00) 0 = 0) ∧
  crc16Update 0x0000 0x00 = 0x0000 ∧ crc16Update 0x0000 0x01 = 0x1021 ∧ crc16Update 0x8000 0x00 = 0x9188 ∧
  crc16Update 0xFFFF 0xFF = 0xFF00 ∧ crc16Update 0x1234 0x56 = 0x3C40 ∧
  crc16 [0x31, 0x32, 0x33, 0x34, 0x35, 0x36, 0x37, 0x38, 0x39] 0 = 0x31C3 ∧ crc16 [0x41] 0 = 0x58E5

/-- R112: the split law, the byte-serial form from 0, the residue law. -/
def Obligations.CrcSplitSerialAndResidueLaws : Prop :=
  (∀ a b s, crc16 (a ++ b) s = crc16 b (crc16 a s)) ∧
  (∀ payload, payload.foldl (fun acc b => crc16Update acc b) 0 = crc16 payload 0) ∧
  (∀ a, crc16 (a ++ chkField a .crc16) 0 = 0)

/-- R113 and R114: the sum of the bytes modulo 256, its split law and its byte-serial form. -/
def Obligations.ChecksumIsTheByteSum : Prop :=
  (∀ bytes, cksum bytes = BitVec.ofNat 8 (bytes.map BitVec.toNat).sum) ∧
  (∀ a b, cksum (a ++ b) = cksum a + cksum b) ∧
  (∀ bytes b, cksum (bytes ++ [b]) = cksum bytes + b) ∧
  cksum [] = 0x00 ∧ cksum [0xFF, 0x01] = 0x00 ∧ cksum (List.replicate 128 0x1A) = 0x00 ∧
  cksum (List.replicate 128 0xFF) = 0x80 ∧
  cksum [0x31, 0x32, 0x33, 0x34, 0x35, 0x36, 0x37, 0x38, 0x39] = 0xDD

/-- R117 and R87: the verification field, the verifier, and how the two received bytes of a CRC are read. -/
def Obligations.VerifierComparesHighByteFirst : Prop :=
  (∀ payload m, chkBytes payload m = chkField payload m) ∧
  (∀ payload m chk, verify payload m chk = if chk = chkField payload m then .ok else .crcError) ∧
  (∀ payload v, verify payload .checksum [v] = .ok ↔ v = cksum payload) ∧
  (∀ payload h l, verify payload .crc16 [h, l] = .ok ↔ h.toNat * 256 + l.toNat = (crc16 payload 0).toNat)

/-- R119 and R86: the complement check, and its equivalent with a sum. -/
def Obligations.ComplementCheckIsSumTo255 : Prop :=
  (∀ b c, blkchk b c = true ↔ c = ~~~b) ∧ (∀ b c, blkchk b c = true ↔ (b.toNat + c.toNat) % 256 = 255)

/-- R115, R116, R122 and R142: the size, length, packet-kind and start-byte tables, over their whole domains and for
every choice of the control codes. -/
def Obligations.SizeLengthAndStartByteTables : Prop :=
  (∀ codes h, inferSize codes h = if h = codes.soh then 128 else if h = codes.stx then 1024 else 0) ∧
  checkLen .crc16 = 2 ∧ checkLen .checksum = 1 ∧
  (∀ (codes : Codes) (n : Fin 1025), sizeSelect codes n =
    if n.val = 0 then .eot else if n.val ≤ 128 then .packet codes.soh 128 else .packet codes.stx 1024) ∧
  (∀ codes, startByte codes .crc16 = codes.crq) ∧ (∀ codes, startByte codes .checksum = codes.nak)

/-- R82, R120 and R121: the fields of a data packet by offset, and its length. -/
def Obligations.DataPacketLayout : Prop :=
  ∀ (codes : Codes) (hdr b : Byte) (data : Bytes) (p : Nat) (m : Mode), 1 ≤ data.length → data.length ≤ p →
    (hdr = codes.soh ∧ p = 128 ∨ hdr = codes.stx ∧ p = 1024) →
    (pad data p).length = p ∧ (pad data p).take data.length = data ∧
    (∀ i, data.length ≤ i → i < p → (pad data p)[i]? = some 0x1A) ∧
    (encodeFrame hdr b (pad data p) m).length = 3 + p + (match m with | .checksum => 1 | .crc16 => 2) ∧
    (encodeFrame hdr b (pad data p) m)[0]? = some hdr ∧
    (encodeFrame hdr b (pad data p) m)[1]? = some b ∧
    (encodeFrame hdr b (pad data p) m)[2]? = some (~~~b) ∧
    ((encodeFrame hdr b (pad data p) m).drop 3).take p = pad data p ∧
    (encodeFrame hdr b (pad data p) m).drop (3 + p) = chkField (pad data p) m

/-- R123: what is dropped is fill to the end, and what is kept does not end in fill. -/
def Obligations.TrimDropsTheTrailingFillRun : Prop :=
  ∀ payload : Bytes,
    trim payload ≤ payload.length ∧
    (∀ i, trim payload ≤ i → i < payload.length → payload[i]? = some 0x1A) ∧
    (∀ k, trim payload = k + 1 → payload[k]? ≠ some 0x1A)

/-- R124: padding and trimming give back the chunk less its trailing fill, so the chunk itself just when it does not end
in fill. -/
def Obligations.PadThenTrimGivesTheChunkBack : Prop :=
  ∀ (codes : Codes) (d : Bytes) (hd : d.length < 1025), 1 ≤ d.length →
    ∃ hdr p, sizeSelect codes ⟨d.length, hd⟩ = .packet hdr p ∧
      (pad d p).take (trim (pad d p)) = d.rdropWhile (fun b => b == 0x1A) ∧
      ((pad d p).take (trim (pad d p)) = d ↔ d.getLast? ≠ some 0x1A)

/-- The codec's operations as instructions: each completes with its value and writes no register (40_codec.md, "They read
only their operands and write no register"). That the value appears at the port `dp` is the model's choice (log 12), and
so is the reading of "the session's first SRC request" in FIRST_TAG (log 11). -/
def Obligations.CodecOperationsCompleteAndWriteNoRegister : Prop :=
  ∀ s : State, s.faulted = false →
    (∀ crc b, exec (.crc16Update crc b) s = .next { s with dp := .word (crcStep crc b) }) ∧
    (∀ bytes seed, exec (.crc16 bytes seed) s = .next { s with dp := .word (bytes.foldl crcStep seed) }) ∧
    (∀ bytes, exec (.cksum bytes) s = .next { s with dp := .byte (BitVec.ofNat 8 (bytes.map BitVec.toNat).sum) }) ∧
    (∀ h, exec (.inferSize h) s =
      .next { s with dp := .length (if h = s.codes.soh then 128 else if h = s.codes.stx then 1024 else 0) }) ∧
    (∀ m, exec (.checkLen m) s = .next { s with dp := .length (match m with | .crc16 => 2 | .checksum => 1) }) ∧
    (∀ payload m, exec (.chkBytes payload m) s = .next { s with dp := .bytes (chkField payload m) }) ∧
    (∀ payload m chk, exec (.verify payload m chk) s =
      .next { s with dp := .verdict (if chk = chkField payload m then .ok else .crcError) }) ∧
    (∀ b c, exec (.blkchk b c) s = .next { s with dp := .flag (decide (c = ~~~b)) }) ∧
    (∀ data p, exec (.pad data p) s =
      .next { s with dp := .bytes (data ++ List.replicate (p - data.length) 0x1A) }) ∧
    (∀ hdr b payload m, exec (.encodeFrame hdr b payload m) s =
      .next { s with dp := .bytes ([hdr, b, ~~~b] ++ payload ++ chkField payload m) }) ∧
    (∀ n, exec (.sizeSelect n) s = .next { s with
      dp := .size (if n.val = 0 then .eot
        else if n.val ≤ 128 then .packet s.codes.soh 128 else .packet s.codes.stx 1024) }) ∧
    (∀ payload, exec (.trim payload) s = .next { s with dp := .length (trim payload) }) ∧
    (∀ m, exec (.startByte m) s =
      .next { s with dp := .byte (match m with | .crc16 => s.codes.crq | .checksum => s.codes.nak) }) ∧
    (∀ blk rule, s.cfgFirstTagRule = some rule → exec (.firstTag blk) s = .next { s with
      dp := .flag (match rule with | .wrapped8 => decide (blk.toNat < 2) | .firstOnly => !s.srcAsked) })

/-! ## Decoding -/

/-- R88 and R89: all 256 values at the header position; inside a packet every byte is data, whatever its value. -/
def Obligations.ReceiverPositionsDecodeEveryByte : Prop :=
  ∀ (codes : Codes) (b : Byte),
    decode codes (.answerAt .hdr (.byte b)) =
      .ok (if b = codes.soh then .rxHdrSoh else if b = codes.stx then .rxHdrStx else if b = codes.eot then .rxHdrEot
        else if b = codes.can then .rxHdrCan else .rxHdrOther b) ∧
    decode codes (.answerAt .bnum (.byte b)) = .ok (.rxBnum b) ∧ decode codes (.answerAt .bcmp (.byte b)) = .ok (.rxBcmp b) ∧
    decode codes (.answerAt .data (.byte b)) = .ok (.rxData b) ∧ decode codes (.answerAt .chk (.byte b)) = .ok (.rxChk b)

/-- R90: the sender's five positions, each for all 256 values. -/
def Obligations.SenderPositionsDecodeEveryByte : Prop :=
  ∀ (codes : Codes) (b : Byte),
    decode codes (.answerAt .hs (.byte b)) =
      .ok (if b = codes.crq then .txHsCrq else if b = codes.nak then .txHsNak else .txHsOther b) ∧
    decode codes (.answerAt .resp (.byte b)) =
      .ok (if b = codes.ack then .txRespAck else if b = codes.can then .txRespCan else .txRespOther (.byte b)) ∧
    decode codes (.answerAt .respCan (.byte b)) = .ok (if b = codes.can then .txRespCanCan else .txRespCanOther (.byte b)) ∧
    decode codes (.answerAt .eot (.byte b)) =
      .ok (if b = codes.ack then .txEotAck else if b = codes.can then .txEotCan else .txEotOther b) ∧
    decode codes (.answerAt .eotCan (.byte b)) = .ok (if b = codes.can then .txEotCanCan else .txEotCanOther (.byte b))

/-- At every phase the decoder takes just the answers that are legal for the phase's request (R24, R233). -/
def Obligations.LegalAnswersAreTheDecodedOnes : Prop :=
  ∀ (codes : Codes) (p : Phase) (q : Request) (a : Answer),
    (match p, q with
      | .settle, .delay => True
      | .hdr, .rd .char => True
      | .bnum, .rd .char => True
      | .bcmp, .rd .char => True
      | .data, .rd .char => True
      | .chk, .rd .char => True
      | .sink, .sink _ _ => True
      | .hs, .rd .hs => True
      | .src, .src _ _ => True
      | .resp, .rd .resp => True
      | .respCan, .rd .resp => True
      | .eot, .rd .resp => True
      | .eotCan, .rd .resp => True
      | _, _ => False) →
    (legalAnswer q a = true ↔ ∃ i, decode codes (.answerAt p a) = .ok i)

/-- In every engine whose control codes are distinct (R80, D2) decoding and encoding agree, both ways: the decoder answers an instruction just when the instruction is well-formed
and the encoding is one of its encodings. So no bit of an operand is dropped and no encoding has two meanings. -/
def Obligations.DecodeAndEncodeAgree : Prop :=
  ∀ codes : Codes, codes.distinct = true →
    ∀ (i : Instr) (e : Encoded), decode codes e = .ok i ↔ wellFormed codes i = true ∧ e ∈ encode codes i

/-- With the default control codes, a few encodings written out from the opcode table, one at least per format. -/
def Obligations.TableWordsDecode : Prop :=
  decode Codes.default (.answerAt .hdr (.byte 0x01)) = .ok .rxHdrSoh ∧
  decode Codes.default (.answerAt .data (.byte 0x18)) = .ok (.rxData 0x18) ∧
  decode Codes.default (.answerAt .chk .timeout) = .ok .rxShortRead ∧
  decode Codes.default (.answerAt .hs (.byte 0x43)) = .ok .txHsCrq ∧
  decode Codes.default (.answerAt .resp (.byte 0x06)) = .ok .txRespAck ∧
  decode Codes.default (.answerAt .src (.srcData 0 [])) = .ok .txSrcEof ∧
  decode Codes.default (.rxEmit [.wr 0x18, .wr 0x18]) = .ok .rxEmitAbort ∧
  decode Codes.default (.txEmit [.wr 0x04]) = .ok .txEmitEot ∧
  decode Codes.default (.request (.rd .hs)) = .ok (.hostRd .hs) ∧
  decode Codes.default (.output .flush) = .ok .hostFlush ∧
  decodeTableWord 8 0x01 = some .rxHdrSoh ∧ decodeTableWord 16 0x1818 = some .rxEmitAbort

/-! ## The step -/

/-- A step takes the next event, clears the request it answers, and runs the decoded instruction. The list of events
(log 4) and the moment of the clearing (log 6) are the model's. -/
def Obligations.StepRunsTheDecodedInstruction : Prop :=
  (∀ (s : State) (a : Answer) (rest : List Event) (q : Request) (p : Phase) (i : Instr), s.faulted = false →
    s.inbox = .answer a :: rest → s.req = some q → legalAnswer q a = true → s.ph = some p →
    decode s.codes (.answerAt p a) = .ok i → step s = exec i { s with inbox := rest, req := none }) ∧
  (∀ (s : State) (cfg : SessionCfg) (rest : List Event), s.faulted = false → s.inbox = .startRx cfg :: rest →
    step s = exec (.hostStartRx cfg) { s with inbox := rest }) ∧
  (∀ (s : State) (cfg : SessionCfg) (rest : List Event), s.faulted = false → s.inbox = .startTx cfg :: rest →
    step s = exec (.hostStartTx cfg) { s with inbox := rest })

/-- An answer that is not legal for the outstanding request, or comes with none outstanding, is FAULT(bad_answer); with
no event the engine waits. That the fault is a next state (log 2), that the request stands (log 6) and that a wait is a
step that changes nothing (log 5) are the model's. -/
def Obligations.IllegalAnswersFaultAndNoEventWaits : Prop :=
  (∀ (s : State) (a : Answer) (rest : List Event), s.faulted = false → s.inbox = .answer a :: rest →
    (∀ q, s.req = some q → legalAnswer q a = false) →
    step s = .next { s with inbox := rest, faulted := true, faultReason := some .badAnswer }) ∧
  (∀ s : State, s.faulted = false → s.inbox = [] → step s = .next s)

/-- A faulted engine takes no step and runs no instruction, START included (from R262; the stop is the model's form,
log 3). -/
def Obligations.FaultedEngineStops : Prop :=
  ∀ s : State, s.faulted = true →
    step s = .fault .engineFaulted ∧ ∀ i : Instr, exec i s = .fault .engineFaulted

/-! ## Reset and the invariant -/

/-- The power-on table and the registers without a value (from R280). -/
def Obligations.PowerOnValues : Prop :=
  State.reset.busy = false ∧ State.reset.role = .none ∧ State.reset.req = none ∧ State.reset.result = none ∧
  State.reset.lastError = none ∧ State.reset.storageCode = none ∧ State.reset.bytes = 0 ∧
  State.reset.faulted = false ∧
  State.reset.rxst = none ∧ State.reset.txst = none ∧ State.reset.ph = none ∧ State.reset.mode = none ∧
  State.reset.blk = none ∧ State.reset.blkset = none ∧ State.reset.retry = none ∧ State.reset.tretry = none ∧
  State.reset.status = none ∧ State.reset.psize = none ∧ State.reset.idx = none ∧ State.reset.rblk = none ∧
  State.reset.rcblk = none ∧ (∀ a, Memory.read State.reset.chkbuf a = none) ∧ State.reset.cidx = none ∧
  State.reset.chklen = none ∧ State.reset.l = none ∧ State.reset.n = none ∧ State.reset.frame = none ∧
  State.reset.flen = none ∧ (∀ a, Memory.read State.reset.pbuf a = none) ∧ State.reset.cfgRetryMax = none ∧
  State.reset.cfgTxRetryMax = none ∧ State.reset.cfgRxInitMode = none ∧ State.reset.cfgRxText = none ∧
  State.reset.cfgFirstTagRule = none

/-- The invariant holds at power-on. -/
def Obligations.InvariantHoldsAtPowerOn : Prop := Inv State.reset

/-- Every step keeps the invariant, whatever event comes: the buffers' canonical form, the value of every register a phase
reads, the request of every phase (R24), the budgets' ranges (R27, R28), the frame of the current block (R215), the
results a role can end with (R251), and that no register without a value is read (R43). -/
def Obligations.EveryStepKeepsTheInvariant : Prop :=
  ∀ s t : State, Inv s → step s = .next t → Inv t

/-- While the environment keeps its contract, a step always completes, and without a model fault (from R43, R234, R262). -/
def Obligations.ContractKeepingEnvironmentNeverFaults : Prop :=
  ∀ (s : State) (e : Event) (rest : List Event), Inv s → s.faulted = false → s.inbox = e :: rest →
    legalEvent s e = true → ∃ t, step s = .next t ∧ t.faulted = false ∧ t.inbox = rest ∧ Inv t

/-- From a state that meets the invariant a step stops only because the engine is faulted, and never for want of a
meaning. -/
def Obligations.StepStopsOnlyWhenFaulted : Prop :=
  ∀ s : State, Inv s →
    (∀ f, step s = .fault f → s.faulted = true ∧ f = .engineFaulted) ∧ (∀ r, step s ≠ .refused r)

/-! ## START -/

/-- START rx (from R140, R230, R281 and the table of 10_state.md section 6): the configuration latched, the registers the
rule lists written, the receiver's other registers at no value; all others, the sender's too, keep theirs. That START takes
the values of PBUF and CHKBUF away byte by byte, and of the role's own registers only, is log 16 (DEDUCED). -/
def Obligations.StartRxOpensAReceiverSession : Prop :=
  ∀ (s : State) (cfg : SessionCfg), s.faulted = false → s.busy = false → 1 ≤ cfg.retryMax → 1 ≤ cfg.txRetryMax →
    exec (.hostStartRx cfg) s = .next
      { s with
        cfgRetryMax := some cfg.retryMax, cfgTxRetryMax := some cfg.txRetryMax,
        cfgRxInitMode := some cfg.rxInitMode, cfgRxText := some cfg.rxTextMode,
        cfgFirstTagRule := some cfg.firstTagRule,
        role := .rx, busy := true, result := none, status := some .ok, bytes := 0, storageCode := none,
        rxst := some .awaitStart, mode := some cfg.rxInitMode, retry := some cfg.retryMax, blkset := some false,
        ph := some .settle, req := some .delay,
        blk := none, psize := none, idx := none, rblk := none, rcblk := none, chkbuf := [], cidx := none,
        chklen := none, l := none, pbuf := [] }

/-- START tx (from R190, R230 and the table of 10_state.md section 6). The clearing of `srcAsked` is the model's (log 11). -/
def Obligations.StartTxOpensASenderSession : Prop :=
  ∀ (s : State) (cfg : SessionCfg), s.faulted = false → s.busy = false → 1 ≤ cfg.retryMax → 1 ≤ cfg.txRetryMax →
    exec (.hostStartTx cfg) s = .next
      { s with
        cfgRetryMax := some cfg.retryMax, cfgTxRetryMax := some cfg.txRetryMax,
        cfgRxInitMode := some cfg.rxInitMode, cfgRxText := some cfg.rxTextMode,
        cfgFirstTagRule := some cfg.firstTagRule,
        role := .tx, busy := true, result := none, status := some .ok, bytes := 0, storageCode := none,
        txst := some .awaitHandshake, out := s.out ++ [.flush], ph := some .hs, req := some (.rd .hs),
        mode := none, blk := none, tretry := none, n := none, frame := none, flen := none, srcAsked := false }

/-- START while a session runs is FAULT(start_while_busy), tested first; a configuration out of bounds is
FAULT(bad_config); a source answer that breaks the contract is FAULT(source_contract); each writes FAULTED and no other
register of the spec (from R200, R230, R255, R262). That the fault is a next state and keeps its reason (log 2), and that
both budgets are tested for either role (log 15), are the model's. -/
def Obligations.ModelFaultsWriteOnlyFaulted : Prop :=
  ∀ (s : State) (cfg : SessionCfg), s.faulted = false →
    (s.busy = true →
      exec (.hostStartRx cfg) s = .next { s with faulted := true, faultReason := some .startWhileBusy } ∧
      exec (.hostStartTx cfg) s = .next { s with faulted := true, faultReason := some .startWhileBusy }) ∧
    (s.busy = false → (cfg.retryMax = 0 ∨ cfg.txRetryMax = 0) →
      exec (.hostStartRx cfg) s = .next { s with faulted := true, faultReason := some .badConfig } ∧
      exec (.hostStartTx cfg) s = .next { s with faulted := true, faultReason := some .badConfig }) ∧
    (∀ n bytes, exec (.txSrcContract n bytes) s =
      .next { s with faulted := true, faultReason := some .sourceContract })

/-! ## The receiver -/

/-- R141. -/
def Obligations.SettleElapsedSendsTheStartByte : Prop :=
  ∀ (s : State) (m : Mode), s.faulted = false → s.mode = some m →
    exec .rxSettleElapsed s = .next
      { s with
        out := s.out ++ [.wr (match m with | .crc16 => s.codes.crq | .checksum => s.codes.nak)], ph := some .hdr,
        req := some (.rd .char) }

/-- R143 and R144. That STX is told from SOH rests on the codes being distinct (R80, D2). -/
def Obligations.DataHeadersSetThePayloadSize : Prop :=
  ∀ s : State, s.faulted = false → s.codes.distinct = true →
    exec .rxHdrSoh s = .next { s with psize := some 128, ph := some .bnum, req := some (.rd .char) } ∧
    exec .rxHdrStx s = .next { s with psize := some 1024, ph := some .bnum, req := some (.rd .char) }

/-- R145 and R146. -/
def Obligations.EotIsAcknowledgedAndOneCanCancels : Prop :=
  ∀ s : State, s.faulted = false → s.role = .rx →
    exec .rxHdrEot s = .next
      (rxEnded .endOfTransfer .endOfTransfer s.lastError { s with out := s.out ++ [.wr s.codes.ack] }) ∧
    exec .rxHdrCan s = .next (rxEnded .cancelled .cancel (some .cancel) s)

/-- R149 and R150. -/
def Obligations.BlockNumberBytesAreKept : Prop :=
  ∀ (s : State) (b : Byte), s.faulted = false →
    exec (.rxBnum b) s = .next { s with rblk := some b, ph := some .bcmp, req := some (.rd .char) } ∧
    exec (.rxBcmp b) s = .next
      { s with rcblk := some b, idx := some 0, ph := some .data, req := some (.rd .char) }

/-- R151: the byte goes to `PBUF[IDX]` and every other byte of PBUF stays; the last one opens the verification field. -/
def Obligations.PayloadByteGoesToPbufAtIdx : Prop :=
  ∀ (s : State) (d : Byte) (i p : Nat) (m : Mode), s.faulted = false → s.idx = some i → i < 1024 →
    s.psize = some p → s.mode = some m →
    ∃ pb, Memory.read pb i = some d ∧ (∀ a, a ≠ i → Memory.read pb a = Memory.read s.pbuf a) ∧
      exec (.rxData d) s = .next
        (if i + 1 = p then
          { s with
            pbuf := pb, idx := some (i + 1), cidx := some 0,
            chklen := some (match m with | .crc16 => 2 | .checksum => 1), ph := some .chk, req := some (.rd .char) }
        else { s with pbuf := pb, idx := some (i + 1), req := some (.rd .char) })

/-- From R152, while verification bytes are still missing: the byte goes to `CHKBUF[CIDX]` and every other byte stays. -/
def Obligations.CheckByteGoesToChkbufAtCidx : Prop :=
  ∀ (s : State) (v : Byte) (i k : Nat), s.faulted = false → s.cidx = some i → i < 2 → s.chklen = some k →
    i + 1 ≠ k →
    ∃ cb, Memory.read cb i = some v ∧ (∀ a, a ≠ i → Memory.read cb a = Memory.read s.chkbuf a) ∧
      exec (.rxChk v) s = .next { s with chkbuf := cb, cidx := some (i + 1), req := some (.rd .char) }

/-- From R154, R155 and R159 to R162: the last verification byte of a packet whose complement or verification is bad makes
a failed attempt with cause crc_error; `BLK` and `BLKSET` keep their values and the sink is not asked. -/
def Obligations.BadPacketIsAFailedAttempt : Prop :=
  ∀ (s : State) (v : Byte) (i p r k : Nat) (set : Bool) (m : Mode) (b c : Byte) (payload chk : Bytes),
    s.faulted = false → s.role = .rx → s.cidx = some i → i < 2 → s.chklen = some (i + 1) → s.rblk = some b → s.rcblk = some c →
    s.psize = some p → p ≤ 1024 → Memory.slice s.pbuf 0 p = some payload → s.mode = some m →
    Memory.slice (Memory.write s.chkbuf i v) 0 (i + 1) = some chk →
    s.retry = some r → 1 ≤ r → s.cfgRetryMax = some k → s.blkset = some set →
    (c ≠ ~~~b ∨ chk ≠ chkField payload m) →
    exec (.rxChk v) s = .next
      (failedAttempt .crcError r k set m
        { s with chkbuf := Memory.write s.chkbuf i v, cidx := some (i + 1) })

/-- R156 (and R154, R155 passed): the last verification byte of a good packet. The block number is taken as it stands,
whatever `BLK` held (R164). -/
def Obligations.GoodPacketGoesToTheSink : Prop :=
  ∀ (s : State) (v : Byte) (i p k : Nat) (text : Bool) (m : Mode) (b : Byte) (payload : Bytes),
    s.faulted = false → s.cidx = some i → i < 2 → s.chklen = some (i + 1) → s.rblk = some b →
    s.rcblk = some (~~~b) → s.psize = some p → p ≤ 1024 → Memory.slice s.pbuf 0 p = some payload → s.mode = some m →
    Memory.slice (Memory.write s.chkbuf i v) 0 (i + 1) = some (chkField payload m) →
    s.cfgRetryMax = some k → s.cfgRxText = some text →
    exec (.rxChk v) s = .next
      { s with
        chkbuf := Memory.write s.chkbuf i v, cidx := some (i + 1),
        status := some .ok, retry := some k, blk := some b, blkset := some true, rxst := some .receiving,
        l := some (if text then trim payload else p), ph := some .sink,
        req := some (.sink b (payload.take (if text then trim payload else p))) }

/-- R147, R148, R153 with R159 to R162: the failed attempts at the header position and inside a packet. -/
def Obligations.TimeoutsAndBadHeadersAreFailedAttempts : Prop :=
  ∀ (s : State) (b : Byte) (r k : Nat) (set : Bool) (m : Mode), s.faulted = false → s.role = .rx →
    s.retry = some r → 1 ≤ r →
    s.cfgRetryMax = some k → s.blkset = some set → s.mode = some m →
    exec (.rxHdrOther b) s = .next (failedAttempt .framingError r k set m s) ∧
    exec .rxHdrTimeout s = .next (failedAttempt .timeout r k set m s) ∧
    exec .rxShortRead s = .next (failedAttempt .timeout r k set m s)

/-- R157 and R158. -/
def Obligations.SinkAnswersAckOrAbort : Prop :=
  ∀ (s : State), s.faulted = false → s.role = .rx →
    (∀ n, s.l = some n → exec .rxSinkOk s = .next
      { s with
        bytes := (match s.bytesWidth with | none => s.bytes + n | some w => (s.bytes + n) % 2 ^ w),
        out := s.out ++ [.wr s.codes.ack], ph := some .hdr, req := some (.rd .char) }) ∧
    (∀ code, exec (.rxSinkFail code) s = .next
      (rxEnded .failed .storageError (some .storageError)
        { s with out := s.out ++ [.wr s.codes.can, .wr s.codes.can], storageCode := some code }))

/-! ## The sender -/

/-- From R191, R192 and R195: the start byte selects the mode, block 1 is next, and the source is asked. The field
`srcAsked`, by which the model tells the session's first request, is log 11. -/
def Obligations.StartByteSelectsTheModeAndAsksTheSource : Prop :=
  ∀ (s : State) (rule : FirstTagRule), s.faulted = false → s.cfgFirstTagRule = some rule →
    (rule = .wrapped8 ∨ s.srcAsked = false) →
    exec .txHsCrq s = .next
      { s with
        mode := some .crc16, blk := some 1, txst := some .sending, ph := some .src,
        req := some (.src 1024 true), srcAsked := true } ∧
    exec .txHsNak s = .next
      { s with
        mode := some .checksum, blk := some 1, txst := some .sending, ph := some .src,
        req := some (.src 1024 true), srcAsked := true }

/-- R193 and R194. -/
def Obligations.HandshakeDiscardsOtherBytesAndTimesOut : Prop :=
  ∀ s : State, s.faulted = false → s.role = .tx →
    (∀ b, exec (.txHsOther b) s = .next { s with req := some (.rd .hs) }) ∧
    exec .txHsTimeout s = .next (txEnded .failed .timeout (some .timeout) s)

/-- R198, R199 and R202: the chunk is framed and sent for the first time. -/
def Obligations.ChunkIsFramedAndSent : Prop :=
  ∀ (s : State) (d : Bytes) (b : Byte) (m : Mode) (k : Nat), s.faulted = false → s.blk = some b →
    s.mode = some m → s.cfgTxRetryMax = some k →
    (1 ≤ d.length → d.length ≤ 128 →
      exec (.txFrameSoh d.length d) s = .next
        { s with
          n := some d.length,
          frame := some ([s.codes.soh, b, ~~~b] ++ (d ++ List.replicate (128 - d.length) 0x1A) ++
            chkField (d ++ List.replicate (128 - d.length) 0x1A) m),
          flen := some (match m with | .checksum => 132 | .crc16 => 133), tretry := some k,
          out := s.out ++ ([s.codes.soh, b, ~~~b] ++ (d ++ List.replicate (128 - d.length) 0x1A) ++
            chkField (d ++ List.replicate (128 - d.length) 0x1A) m).map .wr,
          ph := some .resp, req := some (.rd .resp) }) ∧
    (129 ≤ d.length → d.length ≤ 1024 →
      exec (.txFrameStx d.length d) s = .next
        { s with
          n := some d.length,
          frame := some ([s.codes.stx, b, ~~~b] ++ (d ++ List.replicate (1024 - d.length) 0x1A) ++
            chkField (d ++ List.replicate (1024 - d.length) 0x1A) m),
          flen := some (match m with | .checksum => 1028 | .crc16 => 1029), tretry := some k,
          out := s.out ++ ([s.codes.stx, b, ~~~b] ++ (d ++ List.replicate (1024 - d.length) 0x1A) ++
            chkField (d ++ List.replicate (1024 - d.length) 0x1A) m).map .wr,
          ph := some .resp, req := some (.rd .resp) })

/-- R201. -/
def Obligations.SourceFailureAbortsTheSession : Prop :=
  ∀ (s : State) (code : StorageCode), s.faulted = false → s.role = .tx →
    exec (.txSrcFail code) s = .next
      (txEnded .failed .storageError (some .storageError)
        { s with out := s.out ++ [.wr s.codes.can, .wr s.codes.can], storageCode := some code })

/-- From R203, R195 and R196: the block is counted, the block number advances modulo 256, the next chunk is asked for. How
the model tells the session's first request under first_only is log 11. -/
def Obligations.AckAdvancesTheBlock : Prop :=
  ∀ (s : State) (n : Nat) (b : Byte) (rule : FirstTagRule), s.faulted = false → s.n = some n → s.blk = some b →
    s.cfgFirstTagRule = some rule →
    exec .txRespAck s = .next
      { s with
        status := some .ok,
        bytes := (match s.bytesWidth with | none => s.bytes + n | some w => (s.bytes + n) % 2 ^ w),
        blk := some (BitVec.ofNat 8 ((b.toNat + 1) % 256)), ph := some .src,
        req := some (.src 1024
          (match rule with | .wrapped8 => decide ((b.toNat + 1) % 256 < 2) | .firstOnly => !s.srcAsked)),
        srcAsked := true }

/-- R204, R206, R210 and R211: one CAN only moves to the wait for a second byte; the second CAN cancels; after EOT any
other second answer fails the session. (For a data packet it is R207.) -/
def Obligations.TwoCansCancelTheSender : Prop :=
  ∀ s : State, s.faulted = false → s.role = .tx →
    exec .txRespCan s = .next { s with ph := some .respCan, req := some (.rd .resp) } ∧
    exec .txRespCanCan s = .next (txEnded .failed .cancel (some .cancel) s) ∧
    exec .txEotCan s = .next { s with ph := some .eotCan, req := some (.rd .resp) } ∧
    exec .txEotCanCan s = .next (txEnded .failed .cancel (some .cancel) s) ∧
    (∀ reply, exec (.txEotCanOther reply) s = .next (txEnded .failed (cause reply) (some (cause reply)) s))

/-- R205, R207 and R208: a failed transmission sends the identical frame again or ends the session. -/
def Obligations.OtherResponsesRetransmitTheFrame : Prop :=
  ∀ (s : State) (reply : Reply) (r : Nat) (f : Bytes), s.faulted = false → s.role = .tx →
    s.tretry = some r → 1 ≤ r →
    s.frame = some f → s.flen = some f.length →
    exec (.txRespOther reply) s = .next (failedTransmission (cause reply) r f s) ∧
    exec (.txRespCanOther reply) s = .next (failedTransmission (cause reply) r f s)

/-- R197, R209, R210, R212 and R213: the empty chunk sends EOT; ACK to it ends the session with ok, one CAN waits for a
second byte, a timeout or another byte fails the session; and TX.EOT.ACK is the only instruction that makes RESULT ok. -/
def Obligations.EotAnswersAndTheOnlyOkResult : Prop :=
  (∀ s : State, s.faulted = false → s.role = .tx →
    exec .txSrcEof s = .next { s with out := s.out ++ [.wr s.codes.eot], ph := some .eot, req := some (.rd .resp) } ∧
    exec .txEotAck s = .next (txEnded .done .ok s.lastError s) ∧
    exec .txEotCan s = .next { s with ph := some .eotCan, req := some (.rd .resp) } ∧
    exec .txEotTimeout s = .next (txEnded .failed .timeout (some .timeout) s) ∧
    (∀ b, exec (.txEotOther b) s = .next (txEnded .failed .error (some .error) s))) ∧
  (∀ (i : Instr) (s t : State), exec i s = .next t → t.result = some .ok → s.result ≠ some .ok → i = .txEotAck)

/-! ## Outputs and requests as instructions of their own (log 13) -/

/-- The emissions and outputs: each adds its bytes to the output history, in order, and changes nothing else (from R83 to
R85, R236, R237). That they are instructions of their own is log 13. -/
def Obligations.OutputsOnlyExtendTheHistory : Prop :=
  ∀ s : State, s.faulted = false →
    exec .rxEmitCrq s = .next { s with out := s.out ++ [.wr s.codes.crq] } ∧
    exec .rxEmitNak s = .next { s with out := s.out ++ [.wr s.codes.nak] } ∧
    exec .rxEmitAck s = .next { s with out := s.out ++ [.wr s.codes.ack] } ∧
    exec .rxEmitAbort s = .next { s with out := s.out ++ [.wr s.codes.can, .wr s.codes.can] } ∧
    exec .txEmitEot s = .next { s with out := s.out ++ [.wr s.codes.eot] } ∧
    exec .txEmitAbort s = .next { s with out := s.out ++ [.wr s.codes.can, .wr s.codes.can] } ∧
    exec .txEmitFlush s = .next { s with out := s.out ++ [.flush] } ∧
    (∀ b, exec (.hostWr b) s = .next { s with out := s.out ++ [.wr b] }) ∧
    (∀ bytes, exec (.hostWrbuf bytes) s = .next { s with out := s.out ++ bytes.map .wr }) ∧
    exec .hostFlush s = .next { s with out := s.out ++ [.flush] }

/-- The requests: each becomes the one outstanding request (from R35, R235, R238 to R240). That they are instructions of
their own is log 13; the mark on a request to the source is log 11. -/
def Obligations.RequestsBecomeTheOutstandingOne : Prop :=
  ∀ s : State, s.faulted = false →
    (∀ kind, exec (.hostRd kind) s = .next { s with req := some (.rd kind) }) ∧
    exec .hostDelay s = .next { s with req := some .delay } ∧
    (∀ blk bytes, exec (.hostSink blk bytes) s = .next { s with req := some (.sink blk bytes) }) ∧
    (∀ max first, exec (.hostSrc max first) s =
      .next { s with req := some (.src max first), srcAsked := true })

/-! ## Frames and whole-machine rules -/

/-- Every next state of a receiver step, the fault of an unwritten register included, leaves the sender's registers, the
session's settings and parameters and, but for the one byte RX.DATA stores at `IDX` and the one RX.CHK stores at `CIDX`, all of PBUF and
CHKBUF as they were; and each datapath register changes only by the steps whose rule writes it. TXST changes only where a session ends with ROLE
other than rx (R254), which no run brings to a receiver step. -/
def Obligations.ReceiverStepFrame : Prop :=
  ∀ (i : Instr) (s t : State), receiverStep i = true → exec i s = .next t →
    SameSession s t ∧ SameSender s t ∧ (s.role = .rx → t.txst = s.txst) ∧ (t.ph ≠ some .term → t.txst = s.txst) ∧
    (∀ a, (∀ d j, i = .rxData d → s.idx = some j → a ≠ j) → Memory.read t.pbuf a = Memory.read s.pbuf a) ∧
    (∀ a, (∀ v j, i = .rxChk v → s.cidx = some j → a ≠ j) → Memory.read t.chkbuf a = Memory.read s.chkbuf a) ∧
    ((∀ v, i ≠ .rxChk v) → t.blk = s.blk ∧ t.blkset = s.blkset ∧ t.l = s.l) ∧
    ((∀ b, i ≠ .rxBnum b) → t.rblk = s.rblk) ∧ ((∀ b, i ≠ .rxBcmp b) → t.rcblk = s.rcblk) ∧
    ((∀ b, i ≠ .rxBcmp b) → (∀ b, i ≠ .rxData b) → t.idx = s.idx) ∧
    ((∀ b, i ≠ .rxData b) → t.chklen = s.chklen ∧ ((∀ v, i ≠ .rxChk v) → t.cidx = s.cidx)) ∧
    (i ≠ .rxHdrSoh → i ≠ .rxHdrStx → t.psize = s.psize) ∧
    (i ≠ .rxSinkOk → t.bytes = s.bytes) ∧ ((∀ c, i ≠ .rxSinkFail c) → t.storageCode = s.storageCode)

/-- Every next state of a sender step, the fault of an unwritten register included, leaves the receiver's registers and
both its buffers, and the session's settings, as they were; and FRAME, MODE, BLK, BYTES and STORAGE_CODE change only by
the steps whose rule writes them. RXST changes only where a session ends with ROLE = rx (R254), which no run brings to a
sender step. -/
def Obligations.SenderStepFrame : Prop :=
  ∀ (i : Instr) (s t : State), senderStep i = true → exec i s = .next t →
    SameSession s t ∧ SameReceiver s t ∧ (s.role ≠ .rx → t.rxst = s.rxst) ∧ (t.ph ≠ some .term → t.rxst = s.rxst) ∧
    ((∀ n d, i ≠ .txFrameSoh n d) → (∀ n d, i ≠ .txFrameStx n d) →
      t.frame = s.frame ∧ t.flen = s.flen ∧ t.n = s.n) ∧
    (i ≠ .txHsCrq → i ≠ .txHsNak → t.mode = s.mode ∧ (i ≠ .txRespAck → t.blk = s.blk ∧ t.srcAsked = s.srcAsked)) ∧
    (i ≠ .txRespAck → t.bytes = s.bytes) ∧ ((∀ c, i ≠ .txSrcFail c) → t.storageCode = s.storageCode)

/-- PBUF is written by RX.DATA and dropped by START rx, and FRAME is written by the framing of a chunk and dropped by
START tx; no other instruction changes either (from R60). -/
def Obligations.BuffersAreWrittenOnlyByTheirRules : Prop :=
  ∀ (i : Instr) (s t : State), exec i s = .next t →
    ((∀ d, i ≠ .rxData d) → (∀ cfg, i ≠ .hostStartRx cfg) → t.pbuf = s.pbuf) ∧
    ((∀ n d, i ≠ .txFrameSoh n d) → (∀ n d, i ≠ .txFrameStx n d) → (∀ cfg, i ≠ .hostStartTx cfg) →
      t.frame = s.frame ∧ t.flen = s.flen ∧ t.n = s.n)

/-- Only START writes the configuration registers and the role, and nothing changes BYTES_WIDTH and the control codes (from
R36, R41, R42). -/
def Obligations.OnlyStartWritesTheConfiguration : Prop :=
  ∀ (i : Instr) (s t : State), exec i s = .next t →
    t.bytesWidth = s.bytesWidth ∧ t.codes = s.codes ∧ (startCommand i = false → SameConfig s t ∧ t.role = s.role)

/-- What has been emitted is never withdrawn: a step only adds to the output history (from R66, R236). -/
def Obligations.OutputIsNeverWithdrawn : Prop :=
  ∀ s t : State, step s = .next t → ∃ o, t.out = s.out ++ o

/-- LAST_ERROR changes only when a session ends with a failure, and then holds that failure (from R38, R254). -/
def Obligations.LastErrorChangesOnlyOnFailure : Prop :=
  ∀ s t : State, step s = .next t →
    t.lastError = s.lastError ∨
    ∃ c, c ≠ .ok ∧ c ≠ .endOfTransfer ∧ t.lastError = some c ∧ t.result = some c ∧ t.status = some c ∧
      t.ph = some .term ∧ t.busy = false

/-- BYTES changes only by a successful sink write (`L`), an acknowledged packet (`N`) and START (0) (from R40). -/
def Obligations.BytesCountsOnlyConfirmedData : Prop :=
  ∀ (i : Instr) (s t : State), exec i s = .next t →
    t.bytes = s.bytes ∨ (startCommand i = true ∧ t.bytes = 0) ∨
    (∃ k, i = .rxSinkOk ∧ s.l = some k ∧ t.bytes = wrapBytes s.bytesWidth (s.bytes + k)) ∨
    (∃ k, i = .txRespAck ∧ s.n = some k ∧ t.bytes = wrapBytes s.bytesWidth (s.bytes + k))

/-- From R163: in a receiver session MODE changes only from crc16 to checksum, before the first verified packet, and the next
byte is a header; so at most once. -/
def Obligations.ReceiverModeOnlyFallsBack : Prop :=
  ∀ s t : State, Inv s → s.busy = true → s.role = .rx → step s = .next t →
    t.mode = s.mode ∨
    (s.mode = some .crc16 ∧ t.mode = some .checksum ∧ s.blkset = some false ∧ t.ph = some .hdr)

/-- From R68 (a): a running receiver emits ACK only on the sink's success, or on EOT (R145). -/
def Obligations.AckFollowsTheSinkWrite : Prop :=
  ∀ (s t : State) (e : Event) (rest : List Event) (o : List Out), Inv s → s.busy = true → s.role = .rx →
    s.inbox = e :: rest → step s = .next t → t.out = s.out ++ o → .wr s.codes.ack ∈ o →
    (s.ph = some .sink ∧ e = .answer .sinkOk) ∨ (s.ph = some .hdr ∧ e = .answer (.byte s.codes.eot))

/-- From R68 (d): a running sender asks the source only after the start byte or an ACK for a data packet. -/
def Obligations.SourceIsAskedOnlyAfterAnAck : Prop :=
  ∀ (s t : State) (e : Event) (rest : List Event) (max : Nat) (first : Bool), Inv s → s.busy = true →
    s.role = .tx → s.inbox = e :: rest → step s = .next t → t.faulted = false → t.req = some (.src max first) →
    (s.ph = some .hs ∧ (e = .answer (.byte s.codes.crq) ∨ e = .answer (.byte s.codes.nak))) ∨
    (s.ph = some .resp ∧ e = .answer (.byte s.codes.ack))

/-! ## Runs -/

/-- R166: a receiver that hears nothing sends its start byte for its whole budget, falls back once, and fails. The count of
start bytes includes the first one (95_test_vectors.md L1.5). The answers of the run stand in the inbox, which is the
model's (log 4). -/
def Obligations.SilentPeerEndsTheReceiver : Prop :=
  ∀ (s : State) (cfg : SessionCfg), s.faulted = false → s.busy = false → 1 ≤ cfg.retryMax → 1 ≤ cfg.txRetryMax →
    (cfg.rxInitMode = .crc16 →
      s.inbox = .startRx cfg :: .answer .elapsed :: List.replicate (2 * cfg.retryMax) (.answer .timeout) →
      ∃ t : State, core.run (2 * cfg.retryMax + 2) s = .next t ∧
        t.out = s.out ++ List.replicate cfg.retryMax (.wr s.codes.crq) ++ List.replicate cfg.retryMax (.wr s.codes.nak) ∧
        t.rxst = some .failed ∧ t.result = some .timeout ∧ t.mode = some .checksum ∧ t.busy = false ∧
        t.ph = some .term) ∧
    (cfg.rxInitMode = .checksum →
      s.inbox = .startRx cfg :: .answer .elapsed :: List.replicate cfg.retryMax (.answer .timeout) →
      ∃ t : State, core.run (cfg.retryMax + 2) s = .next t ∧
        t.out = s.out ++ List.replicate cfg.retryMax (.wr s.codes.nak) ∧
        t.rxst = some .failed ∧ t.result = some .timeout ∧ t.mode = some .checksum ∧ t.busy = false ∧
        t.ph = some .term)

/-- R216, in either mode: 1024 bytes, then 476, then none; the second packet is sent twice, verbatim. The budget must
allow one retransmission. The answers of the run stand in the inbox, which is the model's (log 4). -/
def Obligations.FifteenHundredBytesAreSent : Prop :=
  ∀ (s : State) (cfg : SessionCfg) (m : Mode) (d1 d2 : Bytes), s.codes.distinct = true →
    s.faulted = false → s.busy = false → 1 ≤ cfg.retryMax → 2 ≤ cfg.txRetryMax → d1.length = 1024 → d2.length = 476 →
    s.inbox = [.startTx cfg, .answer (.byte (match m with | .crc16 => s.codes.crq | .checksum => s.codes.nak)),
      .answer (.srcData 1024 d1), .answer (.byte s.codes.ack), .answer (.srcData 476 d2), .answer (.byte s.codes.nak),
      .answer (.byte s.codes.ack), .answer (.srcData 0 []), .answer (.byte s.codes.ack)] →
    ∃ t : State, core.run 9 s = .next t ∧ t.result = some .ok ∧ t.txst = some .done ∧ t.blk = some 3 ∧
      t.bytes = wrapBytes s.bytesWidth 1500 ∧
      t.out = s.out ++ ([.flush] ++ (encodeFrame s.codes.stx 1 d1 m).map .wr ++
        (encodeFrame s.codes.stx 2 (d2 ++ List.replicate 548 0x1A) m).map .wr ++
        (encodeFrame s.codes.stx 2 (d2 ++ List.replicate 548 0x1A) m).map .wr ++ [.wr s.codes.eot])

/-- The two halves of the engine agree: a receiver at the header position that is fed a frame the encoder made, in its own
mode, takes every byte of it, emits nothing, and hands the payload under its block number to the sink (from R81, R117,
R121, R143 to R156). The frame's bytes stand in the inbox, which is the model's (log 4). -/
def Obligations.ReceiverAcceptsEveryEncodedFrame : Prop :=
  ∀ (s : State) (hdr b : Byte) (payload : Bytes) (m : Mode) (text : Bool) (rest : List Event), Inv s →
    s.faulted = false → s.ph = some .hdr → s.mode = some m → s.cfgRxText = some text →
    (hdr = s.codes.soh ∧ payload.length = 128 ∨ hdr = s.codes.stx ∧ payload.length = 1024) →
    s.inbox = (encodeFrame hdr b payload m).map (fun x => .answer (.byte x)) ++ rest →
    ∃ t : State, core.run (encodeFrame hdr b payload m).length s = .next t ∧
      t.faulted = false ∧ t.ph = some .sink ∧ t.inbox = rest ∧ t.out = s.out ∧ t.blk = some b ∧
      t.blkset = some true ∧ t.rxst = some .receiving ∧ t.retry = s.cfgRetryMax ∧
      t.req = some (.sink b (payload.take (if text then trim payload else payload.length)))

/-! ## The type parameter -/

/-- Storage codes are copied and never looked into (from R39 and D9, "copied verbatim"): whatever function replaces every code
in a state, a step goes the same way and its outcome has the codes replaced. So a step says the same for every choice of the
type parameter StorageCode; how the model leaves that type open is log 9. -/
def Obligations.StorageCodesAreOnlyCopied : Prop :=
  ∀ (f : StorageCode → StorageCode) (s : State), step (renameState f s) = renameOutcome f (step s)
end

