-- ==== Sys2Proof/Laws/Codec.lean ====
section
/-! SUPPORT. What the codec's functions give, said once: lengths, and the byte-serial forms; and what distinct control
codes are. -/

namespace Sys2Proof

/-- Distinct control codes differ in pairs (30_encoding.md R80). -/
theorem Codes.ne_of_distinct {codes : Codes} (h : codes.distinct = true) :
    codes.soh ≠ codes.stx ∧ codes.soh ≠ codes.eot ∧ codes.soh ≠ codes.ack ∧ codes.soh ≠ codes.nak ∧
    codes.soh ≠ codes.can ∧ codes.soh ≠ codes.crq ∧ codes.stx ≠ codes.eot ∧ codes.stx ≠ codes.ack ∧
    codes.stx ≠ codes.nak ∧ codes.stx ≠ codes.can ∧ codes.stx ≠ codes.crq ∧ codes.eot ≠ codes.ack ∧
    codes.eot ≠ codes.nak ∧ codes.eot ≠ codes.can ∧ codes.eot ≠ codes.crq ∧ codes.ack ≠ codes.nak ∧
    codes.ack ≠ codes.can ∧ codes.ack ≠ codes.crq ∧ codes.nak ≠ codes.can ∧ codes.nak ≠ codes.crq ∧
    codes.can ≠ codes.crq := by
  simp only [Codes.distinct, decide_eq_true_eq, List.nodup_cons, List.mem_cons, List.not_mem_nil, or_false, not_or] at h
  tauto

theorem Codes.default_distinct : Codes.default.distinct = true := by decide

end Sys2Proof

namespace Sys2Proof.Machine

theorem checkLen_le (m : Mode) : checkLen m ≤ Config.chkbufSize := by cases m <;> decide

theorem checkLen_pos (m : Mode) : 0 < checkLen m := by cases m <;> decide

@[simp] theorem chkBytes_length (payload : Bytes) (m : Mode) : (chkBytes payload m).length = checkLen m := by
  cases m <;> rfl

theorem pad_length {data : Bytes} {p : Nat} (h : data.length ≤ p) : (pad data p).length = p := by
  simp [pad]
  omega

@[simp] theorem encodeFrame_length (hdr b : Byte) (payload : Bytes) (m : Mode) :
    (encodeFrame hdr b payload m).length = 3 + payload.length + checkLen m := by
  simp [encodeFrame]
  omega

theorem trimLen_le (payload : Bytes) (k : Nat) : trimLen payload k ≤ k := by
  induction k with
  | zero => exact Nat.le_refl 0
  | succ k ih =>
    unfold trimLen
    split
    · omega
    · exact Nat.le_refl _

theorem trim_le (payload : Bytes) : trim payload ≤ payload.length := trimLen_le payload _

/-- The CRC register runs over a sequence in two parts as over the whole. -/
theorem crc16_append (a b : Bytes) (seed : Word) : crc16 (a ++ b) seed = crc16 b (crc16 a seed) := by
  simp [crc16, List.foldl_append]

@[simp] theorem crc16_nil (seed : Word) : crc16 [] seed = seed := rfl

@[simp] theorem crc16_cons (b : Byte) (bytes : Bytes) (seed : Word) :
    crc16 (b :: bytes) seed = crc16 bytes (crc16Update seed b) := rfl

end Sys2Proof.Machine
end

