-- ==== Sys2Proof/Laws/Memory.lean ====
section
/-! SUPPORT. The laws of the byte arrays: a read after a write, the canonical form, and slices. -/

namespace Sys2Proof.Machine.Memory

theorem read_write_same (m : List Host.Cell) (a : Nat) (b : Byte) : read (write m a b) a = some b := by
  induction m with
  | nil => simp [write, read]
  | cons c m ih =>
    obtain ⟨k, v⟩ := c
    simp only [write]
    split
    · simp [read]
    · split
      · simp [read]
      · rename_i _ hne
        simp [read, Ne.symm hne, ih]

theorem read_write_other (m : List Host.Cell) {a i : Nat} (b : Byte) (h : i ≠ a) :
    read (write m a b) i = read m i := by
  induction m with
  | nil => simp [write, read, Ne.symm h]
  | cons c m ih =>
    obtain ⟨k, v⟩ := c
    simp only [write]
    split
    · simp [read, Ne.symm h]
    · split
      · rename_i _ hk
        subst hk
        simp [read, Ne.symm h]
      · simp [read, ih]

/-- A write lists no cell below a bound that held before and that its index keeps. -/
theorem all_write {m : List Host.Cell} {n a : Nat} {b : Byte} (hm : m.all (fun c => decide (n < c.1)) = true)
    (ha : n < a) : (write m a b).all (fun c => decide (n < c.1)) = true := by
  induction m with
  | nil => simpa [write] using ha
  | cons c m ih =>
    obtain ⟨k, v⟩ := c
    simp only [List.all_cons, Bool.and_eq_true, decide_eq_true_eq] at hm
    simp only [write]
    split
    · simp only [List.all_cons, Bool.and_eq_true, decide_eq_true_eq]
      exact ⟨ha, hm.1, hm.2⟩
    · split
      · simp only [List.all_cons, Bool.and_eq_true, decide_eq_true_eq]
        exact ⟨ha, hm.2⟩
      · simp only [List.all_cons, Bool.and_eq_true, decide_eq_true_eq]
        exact ⟨hm.1, ih hm.2⟩

theorem wf_write {size : Nat} {m : List Host.Cell} {a : Nat} {b : Byte} (hm : wf size m = true) (ha : a < size) :
    wf size (write m a b) = true := by
  induction m with
  | nil => simpa [write, wf] using ha
  | cons c m ih =>
    obtain ⟨k, v⟩ := c
    simp only [wf, Bool.and_eq_true, decide_eq_true_eq] at hm
    obtain ⟨⟨hk, hall⟩, hm⟩ := hm
    simp only [write]
    split
    · rename_i hak
      have hall' : m.all (fun c => decide (a < c.1)) = true := by
        simp only [List.all_eq_true, decide_eq_true_eq] at hall ⊢
        exact fun c hc => Nat.lt_trans hak (hall c hc)
      simp only [wf, List.all_cons, Bool.and_eq_true, decide_eq_true_eq]
      exact ⟨⟨ha, hak, hall'⟩, ⟨hk, hall⟩, hm⟩
    · split
      · rename_i hak
        subst hak
        simp only [wf, Bool.and_eq_true, decide_eq_true_eq]
        exact ⟨⟨hk, hall⟩, hm⟩
      · rename_i h1 h2
        simp only [wf, Bool.and_eq_true, decide_eq_true_eq]
        exact ⟨⟨hk, all_write hall (by omega)⟩, ih hm⟩

theorem wf_nil (size : Nat) : wf size [] = true := rfl

/-- A slice has a value just when each of its bytes has. -/
theorem slice_isSome (m : List Host.Cell) (a len : Nat) :
    (slice m a len).isSome = true ↔ ∀ i, i < len → (read m (a + i)).isSome = true := by
  induction len generalizing a with
  | zero => simp [slice]
  | succ len ih =>
    have key : (slice m a (len + 1)).isSome = true ↔
        (read m a).isSome = true ∧ (slice m (a + 1) len).isSome = true := by
      cases hr : read m a <;> cases hs : slice m (a + 1) len <;> simp [slice, hr, hs]
    rw [key, ih]
    constructor
    · rintro ⟨h0, h⟩ i hi
      cases i with
      | zero => exact h0
      | succ i =>
        have := h i (by omega)
        rwa [Nat.add_assoc, Nat.add_comm 1 i] at this
    · intro h
      refine ⟨h 0 (by omega), fun i hi => ?_⟩
      have := h (i + 1) (by omega)
      rwa [Nat.add_assoc, Nat.add_comm 1 i]

theorem slice_length {m : List Host.Cell} {a len : Nat} {bs : Bytes} (h : slice m a len = some bs) :
    bs.length = len := by
  induction len generalizing a bs with
  | zero => simp only [slice, Option.some.injEq] at h; simp [← h]
  | succ len ih =>
    simp only [slice] at h
    split at h
    · rename_i hs
      simp only [Option.some.injEq] at h
      simp [← h, ih hs]
    · simp at h

/-- A slice of bytes that are all listed from index `a` on. -/
theorem slice_eq {m : List Host.Cell} {a : Nat} {bs : Bytes} (h : ∀ i, i < bs.length → read m (a + i) = bs[i]?) :
    slice m a bs.length = some bs := by
  induction bs generalizing a with
  | nil => rfl
  | cons b bs ih =>
    have h0 : read m a = some b := by simpa using h 0 (by simp)
    have ht : slice m (a + 1) bs.length = some bs := by
      apply ih
      intro i hi
      have := h (i + 1) (by simpa using hi)
      rw [Nat.add_assoc, Nat.add_comm 1 i]
      simpa using this
    simp [slice, h0, ht]

theorem slice_congr {m m' : List Host.Cell} {a len : Nat} (h : ∀ i, i < len → read m' (a + i) = read m (a + i)) :
    slice m' a len = slice m a len := by
  induction len generalizing a with
  | zero => rfl
  | succ len ih =>
    have h0 : read m' a = read m a := by simpa using h 0 (by omega)
    have ht : slice m' (a + 1) len = slice m (a + 1) len := by
      apply ih
      intro i hi
      have := h (i + 1) (by omega)
      rw [Nat.add_assoc, Nat.add_comm 1 i]
      exact this
    simp [slice, h0, ht]

/-- The buffers at power-on have the canonical form. -/
theorem wf_reset : wf Config.pbufSize State.reset.pbuf = true ∧ wf Config.chkbufSize State.reset.chkbuf = true :=
  ⟨rfl, rfl⟩

end Sys2Proof.Machine.Memory
end

