-- ==== Sys2Proof/Laws/State.lean ====
section
/-! SUPPORT. One lemma per field per register write: a write changes its own field and leaves every other. -/

namespace Sys2Proof.Machine.State

/-! `setBusy` writes `busy` and nothing else. -/

@[simp] theorem setBusy_busy (s : State) (v : Bool) : (s.setBusy v).busy = v := rfl
@[simp] theorem setBusy_role (s : State) (v : Bool) : (s.setBusy v).role = s.role := rfl
@[simp] theorem setBusy_rxst (s : State) (v : Bool) : (s.setBusy v).rxst = s.rxst := rfl
@[simp] theorem setBusy_txst (s : State) (v : Bool) : (s.setBusy v).txst = s.txst := rfl
@[simp] theorem setBusy_ph (s : State) (v : Bool) : (s.setBusy v).ph = s.ph := rfl
@[simp] theorem setBusy_req (s : State) (v : Bool) : (s.setBusy v).req = s.req := rfl
@[simp] theorem setBusy_mode (s : State) (v : Bool) : (s.setBusy v).mode = s.mode := rfl
@[simp] theorem setBusy_blk (s : State) (v : Bool) : (s.setBusy v).blk = s.blk := rfl
@[simp] theorem setBusy_blkset (s : State) (v : Bool) : (s.setBusy v).blkset = s.blkset := rfl
@[simp] theorem setBusy_retry (s : State) (v : Bool) : (s.setBusy v).retry = s.retry := rfl
@[simp] theorem setBusy_tretry (s : State) (v : Bool) : (s.setBusy v).tretry = s.tretry := rfl
@[simp] theorem setBusy_status (s : State) (v : Bool) : (s.setBusy v).status = s.status := rfl
@[simp] theorem setBusy_psize (s : State) (v : Bool) : (s.setBusy v).psize = s.psize := rfl
@[simp] theorem setBusy_idx (s : State) (v : Bool) : (s.setBusy v).idx = s.idx := rfl
@[simp] theorem setBusy_rblk (s : State) (v : Bool) : (s.setBusy v).rblk = s.rblk := rfl
@[simp] theorem setBusy_rcblk (s : State) (v : Bool) : (s.setBusy v).rcblk = s.rcblk := rfl
@[simp] theorem setBusy_chkbuf (s : State) (v : Bool) : (s.setBusy v).chkbuf = s.chkbuf := rfl
@[simp] theorem setBusy_cidx (s : State) (v : Bool) : (s.setBusy v).cidx = s.cidx := rfl
@[simp] theorem setBusy_chklen (s : State) (v : Bool) : (s.setBusy v).chklen = s.chklen := rfl
@[simp] theorem setBusy_l (s : State) (v : Bool) : (s.setBusy v).l = s.l := rfl
@[simp] theorem setBusy_pbuf (s : State) (v : Bool) : (s.setBusy v).pbuf = s.pbuf := rfl
@[simp] theorem setBusy_n (s : State) (v : Bool) : (s.setBusy v).n = s.n := rfl
@[simp] theorem setBusy_frame (s : State) (v : Bool) : (s.setBusy v).frame = s.frame := rfl
@[simp] theorem setBusy_flen (s : State) (v : Bool) : (s.setBusy v).flen = s.flen := rfl
@[simp] theorem setBusy_result (s : State) (v : Bool) : (s.setBusy v).result = s.result := rfl
@[simp] theorem setBusy_lastError (s : State) (v : Bool) : (s.setBusy v).lastError = s.lastError := rfl
@[simp] theorem setBusy_storageCode (s : State) (v : Bool) : (s.setBusy v).storageCode = s.storageCode := rfl
@[simp] theorem setBusy_bytes (s : State) (v : Bool) : (s.setBusy v).bytes = s.bytes := rfl
@[simp] theorem setBusy_cfgRetryMax (s : State) (v : Bool) : (s.setBusy v).cfgRetryMax = s.cfgRetryMax := rfl
@[simp] theorem setBusy_cfgTxRetryMax (s : State) (v : Bool) : (s.setBusy v).cfgTxRetryMax = s.cfgTxRetryMax := rfl
@[simp] theorem setBusy_cfgRxInitMode (s : State) (v : Bool) : (s.setBusy v).cfgRxInitMode = s.cfgRxInitMode := rfl
@[simp] theorem setBusy_cfgRxText (s : State) (v : Bool) : (s.setBusy v).cfgRxText = s.cfgRxText := rfl
@[simp] theorem setBusy_cfgFirstTagRule (s : State) (v : Bool) : (s.setBusy v).cfgFirstTagRule = s.cfgFirstTagRule := rfl
@[simp] theorem setBusy_faulted (s : State) (v : Bool) : (s.setBusy v).faulted = s.faulted := rfl
@[simp] theorem setBusy_faultReason (s : State) (v : Bool) : (s.setBusy v).faultReason = s.faultReason := rfl
@[simp] theorem setBusy_srcAsked (s : State) (v : Bool) : (s.setBusy v).srcAsked = s.srcAsked := rfl
@[simp] theorem setBusy_out (s : State) (v : Bool) : (s.setBusy v).out = s.out := rfl
@[simp] theorem setBusy_inbox (s : State) (v : Bool) : (s.setBusy v).inbox = s.inbox := rfl
@[simp] theorem setBusy_dp (s : State) (v : Bool) : (s.setBusy v).dp = s.dp := rfl
@[simp] theorem setBusy_bytesWidth (s : State) (v : Bool) : (s.setBusy v).bytesWidth = s.bytesWidth := rfl
@[simp] theorem setBusy_codes (s : State) (v : Bool) : (s.setBusy v).codes = s.codes := rfl

/-! `setRole` writes `role` and nothing else. -/

@[simp] theorem setRole_busy (s : State) (v : Role) : (s.setRole v).busy = s.busy := rfl
@[simp] theorem setRole_role (s : State) (v : Role) : (s.setRole v).role = v := rfl
@[simp] theorem setRole_rxst (s : State) (v : Role) : (s.setRole v).rxst = s.rxst := rfl
@[simp] theorem setRole_txst (s : State) (v : Role) : (s.setRole v).txst = s.txst := rfl
@[simp] theorem setRole_ph (s : State) (v : Role) : (s.setRole v).ph = s.ph := rfl
@[simp] theorem setRole_req (s : State) (v : Role) : (s.setRole v).req = s.req := rfl
@[simp] theorem setRole_mode (s : State) (v : Role) : (s.setRole v).mode = s.mode := rfl
@[simp] theorem setRole_blk (s : State) (v : Role) : (s.setRole v).blk = s.blk := rfl
@[simp] theorem setRole_blkset (s : State) (v : Role) : (s.setRole v).blkset = s.blkset := rfl
@[simp] theorem setRole_retry (s : State) (v : Role) : (s.setRole v).retry = s.retry := rfl
@[simp] theorem setRole_tretry (s : State) (v : Role) : (s.setRole v).tretry = s.tretry := rfl
@[simp] theorem setRole_status (s : State) (v : Role) : (s.setRole v).status = s.status := rfl
@[simp] theorem setRole_psize (s : State) (v : Role) : (s.setRole v).psize = s.psize := rfl
@[simp] theorem setRole_idx (s : State) (v : Role) : (s.setRole v).idx = s.idx := rfl
@[simp] theorem setRole_rblk (s : State) (v : Role) : (s.setRole v).rblk = s.rblk := rfl
@[simp] theorem setRole_rcblk (s : State) (v : Role) : (s.setRole v).rcblk = s.rcblk := rfl
@[simp] theorem setRole_chkbuf (s : State) (v : Role) : (s.setRole v).chkbuf = s.chkbuf := rfl
@[simp] theorem setRole_cidx (s : State) (v : Role) : (s.setRole v).cidx = s.cidx := rfl
@[simp] theorem setRole_chklen (s : State) (v : Role) : (s.setRole v).chklen = s.chklen := rfl
@[simp] theorem setRole_l (s : State) (v : Role) : (s.setRole v).l = s.l := rfl
@[simp] theorem setRole_pbuf (s : State) (v : Role) : (s.setRole v).pbuf = s.pbuf := rfl
@[simp] theorem setRole_n (s : State) (v : Role) : (s.setRole v).n = s.n := rfl
@[simp] theorem setRole_frame (s : State) (v : Role) : (s.setRole v).frame = s.frame := rfl
@[simp] theorem setRole_flen (s : State) (v : Role) : (s.setRole v).flen = s.flen := rfl
@[simp] theorem setRole_result (s : State) (v : Role) : (s.setRole v).result = s.result := rfl
@[simp] theorem setRole_lastError (s : State) (v : Role) : (s.setRole v).lastError = s.lastError := rfl
@[simp] theorem setRole_storageCode (s : State) (v : Role) : (s.setRole v).storageCode = s.storageCode := rfl
@[simp] theorem setRole_bytes (s : State) (v : Role) : (s.setRole v).bytes = s.bytes := rfl
@[simp] theorem setRole_cfgRetryMax (s : State) (v : Role) : (s.setRole v).cfgRetryMax = s.cfgRetryMax := rfl
@[simp] theorem setRole_cfgTxRetryMax (s : State) (v : Role) : (s.setRole v).cfgTxRetryMax = s.cfgTxRetryMax := rfl
@[simp] theorem setRole_cfgRxInitMode (s : State) (v : Role) : (s.setRole v).cfgRxInitMode = s.cfgRxInitMode := rfl
@[simp] theorem setRole_cfgRxText (s : State) (v : Role) : (s.setRole v).cfgRxText = s.cfgRxText := rfl
@[simp] theorem setRole_cfgFirstTagRule (s : State) (v : Role) : (s.setRole v).cfgFirstTagRule = s.cfgFirstTagRule := rfl
@[simp] theorem setRole_faulted (s : State) (v : Role) : (s.setRole v).faulted = s.faulted := rfl
@[simp] theorem setRole_faultReason (s : State) (v : Role) : (s.setRole v).faultReason = s.faultReason := rfl
@[simp] theorem setRole_srcAsked (s : State) (v : Role) : (s.setRole v).srcAsked = s.srcAsked := rfl
@[simp] theorem setRole_out (s : State) (v : Role) : (s.setRole v).out = s.out := rfl
@[simp] theorem setRole_inbox (s : State) (v : Role) : (s.setRole v).inbox = s.inbox := rfl
@[simp] theorem setRole_dp (s : State) (v : Role) : (s.setRole v).dp = s.dp := rfl
@[simp] theorem setRole_bytesWidth (s : State) (v : Role) : (s.setRole v).bytesWidth = s.bytesWidth := rfl
@[simp] theorem setRole_codes (s : State) (v : Role) : (s.setRole v).codes = s.codes := rfl

/-! `setRxst` writes `rxst` and nothing else. -/

@[simp] theorem setRxst_busy (s : State) (v : Option RxSt) : (s.setRxst v).busy = s.busy := rfl
@[simp] theorem setRxst_role (s : State) (v : Option RxSt) : (s.setRxst v).role = s.role := rfl
@[simp] theorem setRxst_rxst (s : State) (v : Option RxSt) : (s.setRxst v).rxst = v := rfl
@[simp] theorem setRxst_txst (s : State) (v : Option RxSt) : (s.setRxst v).txst = s.txst := rfl
@[simp] theorem setRxst_ph (s : State) (v : Option RxSt) : (s.setRxst v).ph = s.ph := rfl
@[simp] theorem setRxst_req (s : State) (v : Option RxSt) : (s.setRxst v).req = s.req := rfl
@[simp] theorem setRxst_mode (s : State) (v : Option RxSt) : (s.setRxst v).mode = s.mode := rfl
@[simp] theorem setRxst_blk (s : State) (v : Option RxSt) : (s.setRxst v).blk = s.blk := rfl
@[simp] theorem setRxst_blkset (s : State) (v : Option RxSt) : (s.setRxst v).blkset = s.blkset := rfl
@[simp] theorem setRxst_retry (s : State) (v : Option RxSt) : (s.setRxst v).retry = s.retry := rfl
@[simp] theorem setRxst_tretry (s : State) (v : Option RxSt) : (s.setRxst v).tretry = s.tretry := rfl
@[simp] theorem setRxst_status (s : State) (v : Option RxSt) : (s.setRxst v).status = s.status := rfl
@[simp] theorem setRxst_psize (s : State) (v : Option RxSt) : (s.setRxst v).psize = s.psize := rfl
@[simp] theorem setRxst_idx (s : State) (v : Option RxSt) : (s.setRxst v).idx = s.idx := rfl
@[simp] theorem setRxst_rblk (s : State) (v : Option RxSt) : (s.setRxst v).rblk = s.rblk := rfl
@[simp] theorem setRxst_rcblk (s : State) (v : Option RxSt) : (s.setRxst v).rcblk = s.rcblk := rfl
@[simp] theorem setRxst_chkbuf (s : State) (v : Option RxSt) : (s.setRxst v).chkbuf = s.chkbuf := rfl
@[simp] theorem setRxst_cidx (s : State) (v : Option RxSt) : (s.setRxst v).cidx = s.cidx := rfl
@[simp] theorem setRxst_chklen (s : State) (v : Option RxSt) : (s.setRxst v).chklen = s.chklen := rfl
@[simp] theorem setRxst_l (s : State) (v : Option RxSt) : (s.setRxst v).l = s.l := rfl
@[simp] theorem setRxst_pbuf (s : State) (v : Option RxSt) : (s.setRxst v).pbuf = s.pbuf := rfl
@[simp] theorem setRxst_n (s : State) (v : Option RxSt) : (s.setRxst v).n = s.n := rfl
@[simp] theorem setRxst_frame (s : State) (v : Option RxSt) : (s.setRxst v).frame = s.frame := rfl
@[simp] theorem setRxst_flen (s : State) (v : Option RxSt) : (s.setRxst v).flen = s.flen := rfl
@[simp] theorem setRxst_result (s : State) (v : Option RxSt) : (s.setRxst v).result = s.result := rfl
@[simp] theorem setRxst_lastError (s : State) (v : Option RxSt) : (s.setRxst v).lastError = s.lastError := rfl
@[simp] theorem setRxst_storageCode (s : State) (v : Option RxSt) : (s.setRxst v).storageCode = s.storageCode := rfl
@[simp] theorem setRxst_bytes (s : State) (v : Option RxSt) : (s.setRxst v).bytes = s.bytes := rfl
@[simp] theorem setRxst_cfgRetryMax (s : State) (v : Option RxSt) : (s.setRxst v).cfgRetryMax = s.cfgRetryMax := rfl
@[simp] theorem setRxst_cfgTxRetryMax (s : State) (v : Option RxSt) : (s.setRxst v).cfgTxRetryMax = s.cfgTxRetryMax := rfl
@[simp] theorem setRxst_cfgRxInitMode (s : State) (v : Option RxSt) : (s.setRxst v).cfgRxInitMode = s.cfgRxInitMode := rfl
@[simp] theorem setRxst_cfgRxText (s : State) (v : Option RxSt) : (s.setRxst v).cfgRxText = s.cfgRxText := rfl
@[simp] theorem setRxst_cfgFirstTagRule (s : State) (v : Option RxSt) : (s.setRxst v).cfgFirstTagRule = s.cfgFirstTagRule := rfl
@[simp] theorem setRxst_faulted (s : State) (v : Option RxSt) : (s.setRxst v).faulted = s.faulted := rfl
@[simp] theorem setRxst_faultReason (s : State) (v : Option RxSt) : (s.setRxst v).faultReason = s.faultReason := rfl
@[simp] theorem setRxst_srcAsked (s : State) (v : Option RxSt) : (s.setRxst v).srcAsked = s.srcAsked := rfl
@[simp] theorem setRxst_out (s : State) (v : Option RxSt) : (s.setRxst v).out = s.out := rfl
@[simp] theorem setRxst_inbox (s : State) (v : Option RxSt) : (s.setRxst v).inbox = s.inbox := rfl
@[simp] theorem setRxst_dp (s : State) (v : Option RxSt) : (s.setRxst v).dp = s.dp := rfl
@[simp] theorem setRxst_bytesWidth (s : State) (v : Option RxSt) : (s.setRxst v).bytesWidth = s.bytesWidth := rfl
@[simp] theorem setRxst_codes (s : State) (v : Option RxSt) : (s.setRxst v).codes = s.codes := rfl

/-! `setTxst` writes `txst` and nothing else. -/

@[simp] theorem setTxst_busy (s : State) (v : Option TxSt) : (s.setTxst v).busy = s.busy := rfl
@[simp] theorem setTxst_role (s : State) (v : Option TxSt) : (s.setTxst v).role = s.role := rfl
@[simp] theorem setTxst_rxst (s : State) (v : Option TxSt) : (s.setTxst v).rxst = s.rxst := rfl
@[simp] theorem setTxst_txst (s : State) (v : Option TxSt) : (s.setTxst v).txst = v := rfl
@[simp] theorem setTxst_ph (s : State) (v : Option TxSt) : (s.setTxst v).ph = s.ph := rfl
@[simp] theorem setTxst_req (s : State) (v : Option TxSt) : (s.setTxst v).req = s.req := rfl
@[simp] theorem setTxst_mode (s : State) (v : Option TxSt) : (s.setTxst v).mode = s.mode := rfl
@[simp] theorem setTxst_blk (s : State) (v : Option TxSt) : (s.setTxst v).blk = s.blk := rfl
@[simp] theorem setTxst_blkset (s : State) (v : Option TxSt) : (s.setTxst v).blkset = s.blkset := rfl
@[simp] theorem setTxst_retry (s : State) (v : Option TxSt) : (s.setTxst v).retry = s.retry := rfl
@[simp] theorem setTxst_tretry (s : State) (v : Option TxSt) : (s.setTxst v).tretry = s.tretry := rfl
@[simp] theorem setTxst_status (s : State) (v : Option TxSt) : (s.setTxst v).status = s.status := rfl
@[simp] theorem setTxst_psize (s : State) (v : Option TxSt) : (s.setTxst v).psize = s.psize := rfl
@[simp] theorem setTxst_idx (s : State) (v : Option TxSt) : (s.setTxst v).idx = s.idx := rfl
@[simp] theorem setTxst_rblk (s : State) (v : Option TxSt) : (s.setTxst v).rblk = s.rblk := rfl
@[simp] theorem setTxst_rcblk (s : State) (v : Option TxSt) : (s.setTxst v).rcblk = s.rcblk := rfl
@[simp] theorem setTxst_chkbuf (s : State) (v : Option TxSt) : (s.setTxst v).chkbuf = s.chkbuf := rfl
@[simp] theorem setTxst_cidx (s : State) (v : Option TxSt) : (s.setTxst v).cidx = s.cidx := rfl
@[simp] theorem setTxst_chklen (s : State) (v : Option TxSt) : (s.setTxst v).chklen = s.chklen := rfl
@[simp] theorem setTxst_l (s : State) (v : Option TxSt) : (s.setTxst v).l = s.l := rfl
@[simp] theorem setTxst_pbuf (s : State) (v : Option TxSt) : (s.setTxst v).pbuf = s.pbuf := rfl
@[simp] theorem setTxst_n (s : State) (v : Option TxSt) : (s.setTxst v).n = s.n := rfl
@[simp] theorem setTxst_frame (s : State) (v : Option TxSt) : (s.setTxst v).frame = s.frame := rfl
@[simp] theorem setTxst_flen (s : State) (v : Option TxSt) : (s.setTxst v).flen = s.flen := rfl
@[simp] theorem setTxst_result (s : State) (v : Option TxSt) : (s.setTxst v).result = s.result := rfl
@[simp] theorem setTxst_lastError (s : State) (v : Option TxSt) : (s.setTxst v).lastError = s.lastError := rfl
@[simp] theorem setTxst_storageCode (s : State) (v : Option TxSt) : (s.setTxst v).storageCode = s.storageCode := rfl
@[simp] theorem setTxst_bytes (s : State) (v : Option TxSt) : (s.setTxst v).bytes = s.bytes := rfl
@[simp] theorem setTxst_cfgRetryMax (s : State) (v : Option TxSt) : (s.setTxst v).cfgRetryMax = s.cfgRetryMax := rfl
@[simp] theorem setTxst_cfgTxRetryMax (s : State) (v : Option TxSt) : (s.setTxst v).cfgTxRetryMax = s.cfgTxRetryMax := rfl
@[simp] theorem setTxst_cfgRxInitMode (s : State) (v : Option TxSt) : (s.setTxst v).cfgRxInitMode = s.cfgRxInitMode := rfl
@[simp] theorem setTxst_cfgRxText (s : State) (v : Option TxSt) : (s.setTxst v).cfgRxText = s.cfgRxText := rfl
@[simp] theorem setTxst_cfgFirstTagRule (s : State) (v : Option TxSt) : (s.setTxst v).cfgFirstTagRule = s.cfgFirstTagRule := rfl
@[simp] theorem setTxst_faulted (s : State) (v : Option TxSt) : (s.setTxst v).faulted = s.faulted := rfl
@[simp] theorem setTxst_faultReason (s : State) (v : Option TxSt) : (s.setTxst v).faultReason = s.faultReason := rfl
@[simp] theorem setTxst_srcAsked (s : State) (v : Option TxSt) : (s.setTxst v).srcAsked = s.srcAsked := rfl
@[simp] theorem setTxst_out (s : State) (v : Option TxSt) : (s.setTxst v).out = s.out := rfl
@[simp] theorem setTxst_inbox (s : State) (v : Option TxSt) : (s.setTxst v).inbox = s.inbox := rfl
@[simp] theorem setTxst_dp (s : State) (v : Option TxSt) : (s.setTxst v).dp = s.dp := rfl
@[simp] theorem setTxst_bytesWidth (s : State) (v : Option TxSt) : (s.setTxst v).bytesWidth = s.bytesWidth := rfl
@[simp] theorem setTxst_codes (s : State) (v : Option TxSt) : (s.setTxst v).codes = s.codes := rfl

/-! `setPh` writes `ph` and nothing else. -/

@[simp] theorem setPh_busy (s : State) (v : Option Phase) : (s.setPh v).busy = s.busy := rfl
@[simp] theorem setPh_role (s : State) (v : Option Phase) : (s.setPh v).role = s.role := rfl
@[simp] theorem setPh_rxst (s : State) (v : Option Phase) : (s.setPh v).rxst = s.rxst := rfl
@[simp] theorem setPh_txst (s : State) (v : Option Phase) : (s.setPh v).txst = s.txst := rfl
@[simp] theorem setPh_ph (s : State) (v : Option Phase) : (s.setPh v).ph = v := rfl
@[simp] theorem setPh_req (s : State) (v : Option Phase) : (s.setPh v).req = s.req := rfl
@[simp] theorem setPh_mode (s : State) (v : Option Phase) : (s.setPh v).mode = s.mode := rfl
@[simp] theorem setPh_blk (s : State) (v : Option Phase) : (s.setPh v).blk = s.blk := rfl
@[simp] theorem setPh_blkset (s : State) (v : Option Phase) : (s.setPh v).blkset = s.blkset := rfl
@[simp] theorem setPh_retry (s : State) (v : Option Phase) : (s.setPh v).retry = s.retry := rfl
@[simp] theorem setPh_tretry (s : State) (v : Option Phase) : (s.setPh v).tretry = s.tretry := rfl
@[simp] theorem setPh_status (s : State) (v : Option Phase) : (s.setPh v).status = s.status := rfl
@[simp] theorem setPh_psize (s : State) (v : Option Phase) : (s.setPh v).psize = s.psize := rfl
@[simp] theorem setPh_idx (s : State) (v : Option Phase) : (s.setPh v).idx = s.idx := rfl
@[simp] theorem setPh_rblk (s : State) (v : Option Phase) : (s.setPh v).rblk = s.rblk := rfl
@[simp] theorem setPh_rcblk (s : State) (v : Option Phase) : (s.setPh v).rcblk = s.rcblk := rfl
@[simp] theorem setPh_chkbuf (s : State) (v : Option Phase) : (s.setPh v).chkbuf = s.chkbuf := rfl
@[simp] theorem setPh_cidx (s : State) (v : Option Phase) : (s.setPh v).cidx = s.cidx := rfl
@[simp] theorem setPh_chklen (s : State) (v : Option Phase) : (s.setPh v).chklen = s.chklen := rfl
@[simp] theorem setPh_l (s : State) (v : Option Phase) : (s.setPh v).l = s.l := rfl
@[simp] theorem setPh_pbuf (s : State) (v : Option Phase) : (s.setPh v).pbuf = s.pbuf := rfl
@[simp] theorem setPh_n (s : State) (v : Option Phase) : (s.setPh v).n = s.n := rfl
@[simp] theorem setPh_frame (s : State) (v : Option Phase) : (s.setPh v).frame = s.frame := rfl
@[simp] theorem setPh_flen (s : State) (v : Option Phase) : (s.setPh v).flen = s.flen := rfl
@[simp] theorem setPh_result (s : State) (v : Option Phase) : (s.setPh v).result = s.result := rfl
@[simp] theorem setPh_lastError (s : State) (v : Option Phase) : (s.setPh v).lastError = s.lastError := rfl
@[simp] theorem setPh_storageCode (s : State) (v : Option Phase) : (s.setPh v).storageCode = s.storageCode := rfl
@[simp] theorem setPh_bytes (s : State) (v : Option Phase) : (s.setPh v).bytes = s.bytes := rfl
@[simp] theorem setPh_cfgRetryMax (s : State) (v : Option Phase) : (s.setPh v).cfgRetryMax = s.cfgRetryMax := rfl
@[simp] theorem setPh_cfgTxRetryMax (s : State) (v : Option Phase) : (s.setPh v).cfgTxRetryMax = s.cfgTxRetryMax := rfl
@[simp] theorem setPh_cfgRxInitMode (s : State) (v : Option Phase) : (s.setPh v).cfgRxInitMode = s.cfgRxInitMode := rfl
@[simp] theorem setPh_cfgRxText (s : State) (v : Option Phase) : (s.setPh v).cfgRxText = s.cfgRxText := rfl
@[simp] theorem setPh_cfgFirstTagRule (s : State) (v : Option Phase) : (s.setPh v).cfgFirstTagRule = s.cfgFirstTagRule := rfl
@[simp] theorem setPh_faulted (s : State) (v : Option Phase) : (s.setPh v).faulted = s.faulted := rfl
@[simp] theorem setPh_faultReason (s : State) (v : Option Phase) : (s.setPh v).faultReason = s.faultReason := rfl
@[simp] theorem setPh_srcAsked (s : State) (v : Option Phase) : (s.setPh v).srcAsked = s.srcAsked := rfl
@[simp] theorem setPh_out (s : State) (v : Option Phase) : (s.setPh v).out = s.out := rfl
@[simp] theorem setPh_inbox (s : State) (v : Option Phase) : (s.setPh v).inbox = s.inbox := rfl
@[simp] theorem setPh_dp (s : State) (v : Option Phase) : (s.setPh v).dp = s.dp := rfl
@[simp] theorem setPh_bytesWidth (s : State) (v : Option Phase) : (s.setPh v).bytesWidth = s.bytesWidth := rfl
@[simp] theorem setPh_codes (s : State) (v : Option Phase) : (s.setPh v).codes = s.codes := rfl

/-! `setReq` writes `req` and nothing else. -/

@[simp] theorem setReq_busy (s : State) (v : Option Request) : (s.setReq v).busy = s.busy := rfl
@[simp] theorem setReq_role (s : State) (v : Option Request) : (s.setReq v).role = s.role := rfl
@[simp] theorem setReq_rxst (s : State) (v : Option Request) : (s.setReq v).rxst = s.rxst := rfl
@[simp] theorem setReq_txst (s : State) (v : Option Request) : (s.setReq v).txst = s.txst := rfl
@[simp] theorem setReq_ph (s : State) (v : Option Request) : (s.setReq v).ph = s.ph := rfl
@[simp] theorem setReq_req (s : State) (v : Option Request) : (s.setReq v).req = v := rfl
@[simp] theorem setReq_mode (s : State) (v : Option Request) : (s.setReq v).mode = s.mode := rfl
@[simp] theorem setReq_blk (s : State) (v : Option Request) : (s.setReq v).blk = s.blk := rfl
@[simp] theorem setReq_blkset (s : State) (v : Option Request) : (s.setReq v).blkset = s.blkset := rfl
@[simp] theorem setReq_retry (s : State) (v : Option Request) : (s.setReq v).retry = s.retry := rfl
@[simp] theorem setReq_tretry (s : State) (v : Option Request) : (s.setReq v).tretry = s.tretry := rfl
@[simp] theorem setReq_status (s : State) (v : Option Request) : (s.setReq v).status = s.status := rfl
@[simp] theorem setReq_psize (s : State) (v : Option Request) : (s.setReq v).psize = s.psize := rfl
@[simp] theorem setReq_idx (s : State) (v : Option Request) : (s.setReq v).idx = s.idx := rfl
@[simp] theorem setReq_rblk (s : State) (v : Option Request) : (s.setReq v).rblk = s.rblk := rfl
@[simp] theorem setReq_rcblk (s : State) (v : Option Request) : (s.setReq v).rcblk = s.rcblk := rfl
@[simp] theorem setReq_chkbuf (s : State) (v : Option Request) : (s.setReq v).chkbuf = s.chkbuf := rfl
@[simp] theorem setReq_cidx (s : State) (v : Option Request) : (s.setReq v).cidx = s.cidx := rfl
@[simp] theorem setReq_chklen (s : State) (v : Option Request) : (s.setReq v).chklen = s.chklen := rfl
@[simp] theorem setReq_l (s : State) (v : Option Request) : (s.setReq v).l = s.l := rfl
@[simp] theorem setReq_pbuf (s : State) (v : Option Request) : (s.setReq v).pbuf = s.pbuf := rfl
@[simp] theorem setReq_n (s : State) (v : Option Request) : (s.setReq v).n = s.n := rfl
@[simp] theorem setReq_frame (s : State) (v : Option Request) : (s.setReq v).frame = s.frame := rfl
@[simp] theorem setReq_flen (s : State) (v : Option Request) : (s.setReq v).flen = s.flen := rfl
@[simp] theorem setReq_result (s : State) (v : Option Request) : (s.setReq v).result = s.result := rfl
@[simp] theorem setReq_lastError (s : State) (v : Option Request) : (s.setReq v).lastError = s.lastError := rfl
@[simp] theorem setReq_storageCode (s : State) (v : Option Request) : (s.setReq v).storageCode = s.storageCode := rfl
@[simp] theorem setReq_bytes (s : State) (v : Option Request) : (s.setReq v).bytes = s.bytes := rfl
@[simp] theorem setReq_cfgRetryMax (s : State) (v : Option Request) : (s.setReq v).cfgRetryMax = s.cfgRetryMax := rfl
@[simp] theorem setReq_cfgTxRetryMax (s : State) (v : Option Request) : (s.setReq v).cfgTxRetryMax = s.cfgTxRetryMax := rfl
@[simp] theorem setReq_cfgRxInitMode (s : State) (v : Option Request) : (s.setReq v).cfgRxInitMode = s.cfgRxInitMode := rfl
@[simp] theorem setReq_cfgRxText (s : State) (v : Option Request) : (s.setReq v).cfgRxText = s.cfgRxText := rfl
@[simp] theorem setReq_cfgFirstTagRule (s : State) (v : Option Request) : (s.setReq v).cfgFirstTagRule = s.cfgFirstTagRule := rfl
@[simp] theorem setReq_faulted (s : State) (v : Option Request) : (s.setReq v).faulted = s.faulted := rfl
@[simp] theorem setReq_faultReason (s : State) (v : Option Request) : (s.setReq v).faultReason = s.faultReason := rfl
@[simp] theorem setReq_srcAsked (s : State) (v : Option Request) : (s.setReq v).srcAsked = s.srcAsked := rfl
@[simp] theorem setReq_out (s : State) (v : Option Request) : (s.setReq v).out = s.out := rfl
@[simp] theorem setReq_inbox (s : State) (v : Option Request) : (s.setReq v).inbox = s.inbox := rfl
@[simp] theorem setReq_dp (s : State) (v : Option Request) : (s.setReq v).dp = s.dp := rfl
@[simp] theorem setReq_bytesWidth (s : State) (v : Option Request) : (s.setReq v).bytesWidth = s.bytesWidth := rfl
@[simp] theorem setReq_codes (s : State) (v : Option Request) : (s.setReq v).codes = s.codes := rfl

/-! `setMode` writes `mode` and nothing else. -/

@[simp] theorem setMode_busy (s : State) (v : Option Mode) : (s.setMode v).busy = s.busy := rfl
@[simp] theorem setMode_role (s : State) (v : Option Mode) : (s.setMode v).role = s.role := rfl
@[simp] theorem setMode_rxst (s : State) (v : Option Mode) : (s.setMode v).rxst = s.rxst := rfl
@[simp] theorem setMode_txst (s : State) (v : Option Mode) : (s.setMode v).txst = s.txst := rfl
@[simp] theorem setMode_ph (s : State) (v : Option Mode) : (s.setMode v).ph = s.ph := rfl
@[simp] theorem setMode_req (s : State) (v : Option Mode) : (s.setMode v).req = s.req := rfl
@[simp] theorem setMode_mode (s : State) (v : Option Mode) : (s.setMode v).mode = v := rfl
@[simp] theorem setMode_blk (s : State) (v : Option Mode) : (s.setMode v).blk = s.blk := rfl
@[simp] theorem setMode_blkset (s : State) (v : Option Mode) : (s.setMode v).blkset = s.blkset := rfl
@[simp] theorem setMode_retry (s : State) (v : Option Mode) : (s.setMode v).retry = s.retry := rfl
@[simp] theorem setMode_tretry (s : State) (v : Option Mode) : (s.setMode v).tretry = s.tretry := rfl
@[simp] theorem setMode_status (s : State) (v : Option Mode) : (s.setMode v).status = s.status := rfl
@[simp] theorem setMode_psize (s : State) (v : Option Mode) : (s.setMode v).psize = s.psize := rfl
@[simp] theorem setMode_idx (s : State) (v : Option Mode) : (s.setMode v).idx = s.idx := rfl
@[simp] theorem setMode_rblk (s : State) (v : Option Mode) : (s.setMode v).rblk = s.rblk := rfl
@[simp] theorem setMode_rcblk (s : State) (v : Option Mode) : (s.setMode v).rcblk = s.rcblk := rfl
@[simp] theorem setMode_chkbuf (s : State) (v : Option Mode) : (s.setMode v).chkbuf = s.chkbuf := rfl
@[simp] theorem setMode_cidx (s : State) (v : Option Mode) : (s.setMode v).cidx = s.cidx := rfl
@[simp] theorem setMode_chklen (s : State) (v : Option Mode) : (s.setMode v).chklen = s.chklen := rfl
@[simp] theorem setMode_l (s : State) (v : Option Mode) : (s.setMode v).l = s.l := rfl
@[simp] theorem setMode_pbuf (s : State) (v : Option Mode) : (s.setMode v).pbuf = s.pbuf := rfl
@[simp] theorem setMode_n (s : State) (v : Option Mode) : (s.setMode v).n = s.n := rfl
@[simp] theorem setMode_frame (s : State) (v : Option Mode) : (s.setMode v).frame = s.frame := rfl
@[simp] theorem setMode_flen (s : State) (v : Option Mode) : (s.setMode v).flen = s.flen := rfl
@[simp] theorem setMode_result (s : State) (v : Option Mode) : (s.setMode v).result = s.result := rfl
@[simp] theorem setMode_lastError (s : State) (v : Option Mode) : (s.setMode v).lastError = s.lastError := rfl
@[simp] theorem setMode_storageCode (s : State) (v : Option Mode) : (s.setMode v).storageCode = s.storageCode := rfl
@[simp] theorem setMode_bytes (s : State) (v : Option Mode) : (s.setMode v).bytes = s.bytes := rfl
@[simp] theorem setMode_cfgRetryMax (s : State) (v : Option Mode) : (s.setMode v).cfgRetryMax = s.cfgRetryMax := rfl
@[simp] theorem setMode_cfgTxRetryMax (s : State) (v : Option Mode) : (s.setMode v).cfgTxRetryMax = s.cfgTxRetryMax := rfl
@[simp] theorem setMode_cfgRxInitMode (s : State) (v : Option Mode) : (s.setMode v).cfgRxInitMode = s.cfgRxInitMode := rfl
@[simp] theorem setMode_cfgRxText (s : State) (v : Option Mode) : (s.setMode v).cfgRxText = s.cfgRxText := rfl
@[simp] theorem setMode_cfgFirstTagRule (s : State) (v : Option Mode) : (s.setMode v).cfgFirstTagRule = s.cfgFirstTagRule := rfl
@[simp] theorem setMode_faulted (s : State) (v : Option Mode) : (s.setMode v).faulted = s.faulted := rfl
@[simp] theorem setMode_faultReason (s : State) (v : Option Mode) : (s.setMode v).faultReason = s.faultReason := rfl
@[simp] theorem setMode_srcAsked (s : State) (v : Option Mode) : (s.setMode v).srcAsked = s.srcAsked := rfl
@[simp] theorem setMode_out (s : State) (v : Option Mode) : (s.setMode v).out = s.out := rfl
@[simp] theorem setMode_inbox (s : State) (v : Option Mode) : (s.setMode v).inbox = s.inbox := rfl
@[simp] theorem setMode_dp (s : State) (v : Option Mode) : (s.setMode v).dp = s.dp := rfl
@[simp] theorem setMode_bytesWidth (s : State) (v : Option Mode) : (s.setMode v).bytesWidth = s.bytesWidth := rfl
@[simp] theorem setMode_codes (s : State) (v : Option Mode) : (s.setMode v).codes = s.codes := rfl

/-! `setBlk` writes `blk` and nothing else. -/

@[simp] theorem setBlk_busy (s : State) (v : Option Byte) : (s.setBlk v).busy = s.busy := rfl
@[simp] theorem setBlk_role (s : State) (v : Option Byte) : (s.setBlk v).role = s.role := rfl
@[simp] theorem setBlk_rxst (s : State) (v : Option Byte) : (s.setBlk v).rxst = s.rxst := rfl
@[simp] theorem setBlk_txst (s : State) (v : Option Byte) : (s.setBlk v).txst = s.txst := rfl
@[simp] theorem setBlk_ph (s : State) (v : Option Byte) : (s.setBlk v).ph = s.ph := rfl
@[simp] theorem setBlk_req (s : State) (v : Option Byte) : (s.setBlk v).req = s.req := rfl
@[simp] theorem setBlk_mode (s : State) (v : Option Byte) : (s.setBlk v).mode = s.mode := rfl
@[simp] theorem setBlk_blk (s : State) (v : Option Byte) : (s.setBlk v).blk = v := rfl
@[simp] theorem setBlk_blkset (s : State) (v : Option Byte) : (s.setBlk v).blkset = s.blkset := rfl
@[simp] theorem setBlk_retry (s : State) (v : Option Byte) : (s.setBlk v).retry = s.retry := rfl
@[simp] theorem setBlk_tretry (s : State) (v : Option Byte) : (s.setBlk v).tretry = s.tretry := rfl
@[simp] theorem setBlk_status (s : State) (v : Option Byte) : (s.setBlk v).status = s.status := rfl
@[simp] theorem setBlk_psize (s : State) (v : Option Byte) : (s.setBlk v).psize = s.psize := rfl
@[simp] theorem setBlk_idx (s : State) (v : Option Byte) : (s.setBlk v).idx = s.idx := rfl
@[simp] theorem setBlk_rblk (s : State) (v : Option Byte) : (s.setBlk v).rblk = s.rblk := rfl
@[simp] theorem setBlk_rcblk (s : State) (v : Option Byte) : (s.setBlk v).rcblk = s.rcblk := rfl
@[simp] theorem setBlk_chkbuf (s : State) (v : Option Byte) : (s.setBlk v).chkbuf = s.chkbuf := rfl
@[simp] theorem setBlk_cidx (s : State) (v : Option Byte) : (s.setBlk v).cidx = s.cidx := rfl
@[simp] theorem setBlk_chklen (s : State) (v : Option Byte) : (s.setBlk v).chklen = s.chklen := rfl
@[simp] theorem setBlk_l (s : State) (v : Option Byte) : (s.setBlk v).l = s.l := rfl
@[simp] theorem setBlk_pbuf (s : State) (v : Option Byte) : (s.setBlk v).pbuf = s.pbuf := rfl
@[simp] theorem setBlk_n (s : State) (v : Option Byte) : (s.setBlk v).n = s.n := rfl
@[simp] theorem setBlk_frame (s : State) (v : Option Byte) : (s.setBlk v).frame = s.frame := rfl
@[simp] theorem setBlk_flen (s : State) (v : Option Byte) : (s.setBlk v).flen = s.flen := rfl
@[simp] theorem setBlk_result (s : State) (v : Option Byte) : (s.setBlk v).result = s.result := rfl
@[simp] theorem setBlk_lastError (s : State) (v : Option Byte) : (s.setBlk v).lastError = s.lastError := rfl
@[simp] theorem setBlk_storageCode (s : State) (v : Option Byte) : (s.setBlk v).storageCode = s.storageCode := rfl
@[simp] theorem setBlk_bytes (s : State) (v : Option Byte) : (s.setBlk v).bytes = s.bytes := rfl
@[simp] theorem setBlk_cfgRetryMax (s : State) (v : Option Byte) : (s.setBlk v).cfgRetryMax = s.cfgRetryMax := rfl
@[simp] theorem setBlk_cfgTxRetryMax (s : State) (v : Option Byte) : (s.setBlk v).cfgTxRetryMax = s.cfgTxRetryMax := rfl
@[simp] theorem setBlk_cfgRxInitMode (s : State) (v : Option Byte) : (s.setBlk v).cfgRxInitMode = s.cfgRxInitMode := rfl
@[simp] theorem setBlk_cfgRxText (s : State) (v : Option Byte) : (s.setBlk v).cfgRxText = s.cfgRxText := rfl
@[simp] theorem setBlk_cfgFirstTagRule (s : State) (v : Option Byte) : (s.setBlk v).cfgFirstTagRule = s.cfgFirstTagRule := rfl
@[simp] theorem setBlk_faulted (s : State) (v : Option Byte) : (s.setBlk v).faulted = s.faulted := rfl
@[simp] theorem setBlk_faultReason (s : State) (v : Option Byte) : (s.setBlk v).faultReason = s.faultReason := rfl
@[simp] theorem setBlk_srcAsked (s : State) (v : Option Byte) : (s.setBlk v).srcAsked = s.srcAsked := rfl
@[simp] theorem setBlk_out (s : State) (v : Option Byte) : (s.setBlk v).out = s.out := rfl
@[simp] theorem setBlk_inbox (s : State) (v : Option Byte) : (s.setBlk v).inbox = s.inbox := rfl
@[simp] theorem setBlk_dp (s : State) (v : Option Byte) : (s.setBlk v).dp = s.dp := rfl
@[simp] theorem setBlk_bytesWidth (s : State) (v : Option Byte) : (s.setBlk v).bytesWidth = s.bytesWidth := rfl
@[simp] theorem setBlk_codes (s : State) (v : Option Byte) : (s.setBlk v).codes = s.codes := rfl

/-! `setBlkset` writes `blkset` and nothing else. -/

@[simp] theorem setBlkset_busy (s : State) (v : Option Bool) : (s.setBlkset v).busy = s.busy := rfl
@[simp] theorem setBlkset_role (s : State) (v : Option Bool) : (s.setBlkset v).role = s.role := rfl
@[simp] theorem setBlkset_rxst (s : State) (v : Option Bool) : (s.setBlkset v).rxst = s.rxst := rfl
@[simp] theorem setBlkset_txst (s : State) (v : Option Bool) : (s.setBlkset v).txst = s.txst := rfl
@[simp] theorem setBlkset_ph (s : State) (v : Option Bool) : (s.setBlkset v).ph = s.ph := rfl
@[simp] theorem setBlkset_req (s : State) (v : Option Bool) : (s.setBlkset v).req = s.req := rfl
@[simp] theorem setBlkset_mode (s : State) (v : Option Bool) : (s.setBlkset v).mode = s.mode := rfl
@[simp] theorem setBlkset_blk (s : State) (v : Option Bool) : (s.setBlkset v).blk = s.blk := rfl
@[simp] theorem setBlkset_blkset (s : State) (v : Option Bool) : (s.setBlkset v).blkset = v := rfl
@[simp] theorem setBlkset_retry (s : State) (v : Option Bool) : (s.setBlkset v).retry = s.retry := rfl
@[simp] theorem setBlkset_tretry (s : State) (v : Option Bool) : (s.setBlkset v).tretry = s.tretry := rfl
@[simp] theorem setBlkset_status (s : State) (v : Option Bool) : (s.setBlkset v).status = s.status := rfl
@[simp] theorem setBlkset_psize (s : State) (v : Option Bool) : (s.setBlkset v).psize = s.psize := rfl
@[simp] theorem setBlkset_idx (s : State) (v : Option Bool) : (s.setBlkset v).idx = s.idx := rfl
@[simp] theorem setBlkset_rblk (s : State) (v : Option Bool) : (s.setBlkset v).rblk = s.rblk := rfl
@[simp] theorem setBlkset_rcblk (s : State) (v : Option Bool) : (s.setBlkset v).rcblk = s.rcblk := rfl
@[simp] theorem setBlkset_chkbuf (s : State) (v : Option Bool) : (s.setBlkset v).chkbuf = s.chkbuf := rfl
@[simp] theorem setBlkset_cidx (s : State) (v : Option Bool) : (s.setBlkset v).cidx = s.cidx := rfl
@[simp] theorem setBlkset_chklen (s : State) (v : Option Bool) : (s.setBlkset v).chklen = s.chklen := rfl
@[simp] theorem setBlkset_l (s : State) (v : Option Bool) : (s.setBlkset v).l = s.l := rfl
@[simp] theorem setBlkset_pbuf (s : State) (v : Option Bool) : (s.setBlkset v).pbuf = s.pbuf := rfl
@[simp] theorem setBlkset_n (s : State) (v : Option Bool) : (s.setBlkset v).n = s.n := rfl
@[simp] theorem setBlkset_frame (s : State) (v : Option Bool) : (s.setBlkset v).frame = s.frame := rfl
@[simp] theorem setBlkset_flen (s : State) (v : Option Bool) : (s.setBlkset v).flen = s.flen := rfl
@[simp] theorem setBlkset_result (s : State) (v : Option Bool) : (s.setBlkset v).result = s.result := rfl
@[simp] theorem setBlkset_lastError (s : State) (v : Option Bool) : (s.setBlkset v).lastError = s.lastError := rfl
@[simp] theorem setBlkset_storageCode (s : State) (v : Option Bool) : (s.setBlkset v).storageCode = s.storageCode := rfl
@[simp] theorem setBlkset_bytes (s : State) (v : Option Bool) : (s.setBlkset v).bytes = s.bytes := rfl
@[simp] theorem setBlkset_cfgRetryMax (s : State) (v : Option Bool) : (s.setBlkset v).cfgRetryMax = s.cfgRetryMax := rfl
@[simp] theorem setBlkset_cfgTxRetryMax (s : State) (v : Option Bool) : (s.setBlkset v).cfgTxRetryMax = s.cfgTxRetryMax := rfl
@[simp] theorem setBlkset_cfgRxInitMode (s : State) (v : Option Bool) : (s.setBlkset v).cfgRxInitMode = s.cfgRxInitMode := rfl
@[simp] theorem setBlkset_cfgRxText (s : State) (v : Option Bool) : (s.setBlkset v).cfgRxText = s.cfgRxText := rfl
@[simp] theorem setBlkset_cfgFirstTagRule (s : State) (v : Option Bool) : (s.setBlkset v).cfgFirstTagRule = s.cfgFirstTagRule := rfl
@[simp] theorem setBlkset_faulted (s : State) (v : Option Bool) : (s.setBlkset v).faulted = s.faulted := rfl
@[simp] theorem setBlkset_faultReason (s : State) (v : Option Bool) : (s.setBlkset v).faultReason = s.faultReason := rfl
@[simp] theorem setBlkset_srcAsked (s : State) (v : Option Bool) : (s.setBlkset v).srcAsked = s.srcAsked := rfl
@[simp] theorem setBlkset_out (s : State) (v : Option Bool) : (s.setBlkset v).out = s.out := rfl
@[simp] theorem setBlkset_inbox (s : State) (v : Option Bool) : (s.setBlkset v).inbox = s.inbox := rfl
@[simp] theorem setBlkset_dp (s : State) (v : Option Bool) : (s.setBlkset v).dp = s.dp := rfl
@[simp] theorem setBlkset_bytesWidth (s : State) (v : Option Bool) : (s.setBlkset v).bytesWidth = s.bytesWidth := rfl
@[simp] theorem setBlkset_codes (s : State) (v : Option Bool) : (s.setBlkset v).codes = s.codes := rfl

/-! `setRetry` writes `retry` and nothing else. -/

@[simp] theorem setRetry_busy (s : State) (v : Option Nat) : (s.setRetry v).busy = s.busy := rfl
@[simp] theorem setRetry_role (s : State) (v : Option Nat) : (s.setRetry v).role = s.role := rfl
@[simp] theorem setRetry_rxst (s : State) (v : Option Nat) : (s.setRetry v).rxst = s.rxst := rfl
@[simp] theorem setRetry_txst (s : State) (v : Option Nat) : (s.setRetry v).txst = s.txst := rfl
@[simp] theorem setRetry_ph (s : State) (v : Option Nat) : (s.setRetry v).ph = s.ph := rfl
@[simp] theorem setRetry_req (s : State) (v : Option Nat) : (s.setRetry v).req = s.req := rfl
@[simp] theorem setRetry_mode (s : State) (v : Option Nat) : (s.setRetry v).mode = s.mode := rfl
@[simp] theorem setRetry_blk (s : State) (v : Option Nat) : (s.setRetry v).blk = s.blk := rfl
@[simp] theorem setRetry_blkset (s : State) (v : Option Nat) : (s.setRetry v).blkset = s.blkset := rfl
@[simp] theorem setRetry_retry (s : State) (v : Option Nat) : (s.setRetry v).retry = v := rfl
@[simp] theorem setRetry_tretry (s : State) (v : Option Nat) : (s.setRetry v).tretry = s.tretry := rfl
@[simp] theorem setRetry_status (s : State) (v : Option Nat) : (s.setRetry v).status = s.status := rfl
@[simp] theorem setRetry_psize (s : State) (v : Option Nat) : (s.setRetry v).psize = s.psize := rfl
@[simp] theorem setRetry_idx (s : State) (v : Option Nat) : (s.setRetry v).idx = s.idx := rfl
@[simp] theorem setRetry_rblk (s : State) (v : Option Nat) : (s.setRetry v).rblk = s.rblk := rfl
@[simp] theorem setRetry_rcblk (s : State) (v : Option Nat) : (s.setRetry v).rcblk = s.rcblk := rfl
@[simp] theorem setRetry_chkbuf (s : State) (v : Option Nat) : (s.setRetry v).chkbuf = s.chkbuf := rfl
@[simp] theorem setRetry_cidx (s : State) (v : Option Nat) : (s.setRetry v).cidx = s.cidx := rfl
@[simp] theorem setRetry_chklen (s : State) (v : Option Nat) : (s.setRetry v).chklen = s.chklen := rfl
@[simp] theorem setRetry_l (s : State) (v : Option Nat) : (s.setRetry v).l = s.l := rfl
@[simp] theorem setRetry_pbuf (s : State) (v : Option Nat) : (s.setRetry v).pbuf = s.pbuf := rfl
@[simp] theorem setRetry_n (s : State) (v : Option Nat) : (s.setRetry v).n = s.n := rfl
@[simp] theorem setRetry_frame (s : State) (v : Option Nat) : (s.setRetry v).frame = s.frame := rfl
@[simp] theorem setRetry_flen (s : State) (v : Option Nat) : (s.setRetry v).flen = s.flen := rfl
@[simp] theorem setRetry_result (s : State) (v : Option Nat) : (s.setRetry v).result = s.result := rfl
@[simp] theorem setRetry_lastError (s : State) (v : Option Nat) : (s.setRetry v).lastError = s.lastError := rfl
@[simp] theorem setRetry_storageCode (s : State) (v : Option Nat) : (s.setRetry v).storageCode = s.storageCode := rfl
@[simp] theorem setRetry_bytes (s : State) (v : Option Nat) : (s.setRetry v).bytes = s.bytes := rfl
@[simp] theorem setRetry_cfgRetryMax (s : State) (v : Option Nat) : (s.setRetry v).cfgRetryMax = s.cfgRetryMax := rfl
@[simp] theorem setRetry_cfgTxRetryMax (s : State) (v : Option Nat) : (s.setRetry v).cfgTxRetryMax = s.cfgTxRetryMax := rfl
@[simp] theorem setRetry_cfgRxInitMode (s : State) (v : Option Nat) : (s.setRetry v).cfgRxInitMode = s.cfgRxInitMode := rfl
@[simp] theorem setRetry_cfgRxText (s : State) (v : Option Nat) : (s.setRetry v).cfgRxText = s.cfgRxText := rfl
@[simp] theorem setRetry_cfgFirstTagRule (s : State) (v : Option Nat) : (s.setRetry v).cfgFirstTagRule = s.cfgFirstTagRule := rfl
@[simp] theorem setRetry_faulted (s : State) (v : Option Nat) : (s.setRetry v).faulted = s.faulted := rfl
@[simp] theorem setRetry_faultReason (s : State) (v : Option Nat) : (s.setRetry v).faultReason = s.faultReason := rfl
@[simp] theorem setRetry_srcAsked (s : State) (v : Option Nat) : (s.setRetry v).srcAsked = s.srcAsked := rfl
@[simp] theorem setRetry_out (s : State) (v : Option Nat) : (s.setRetry v).out = s.out := rfl
@[simp] theorem setRetry_inbox (s : State) (v : Option Nat) : (s.setRetry v).inbox = s.inbox := rfl
@[simp] theorem setRetry_dp (s : State) (v : Option Nat) : (s.setRetry v).dp = s.dp := rfl
@[simp] theorem setRetry_bytesWidth (s : State) (v : Option Nat) : (s.setRetry v).bytesWidth = s.bytesWidth := rfl
@[simp] theorem setRetry_codes (s : State) (v : Option Nat) : (s.setRetry v).codes = s.codes := rfl

/-! `setTretry` writes `tretry` and nothing else. -/

@[simp] theorem setTretry_busy (s : State) (v : Option Nat) : (s.setTretry v).busy = s.busy := rfl
@[simp] theorem setTretry_role (s : State) (v : Option Nat) : (s.setTretry v).role = s.role := rfl
@[simp] theorem setTretry_rxst (s : State) (v : Option Nat) : (s.setTretry v).rxst = s.rxst := rfl
@[simp] theorem setTretry_txst (s : State) (v : Option Nat) : (s.setTretry v).txst = s.txst := rfl
@[simp] theorem setTretry_ph (s : State) (v : Option Nat) : (s.setTretry v).ph = s.ph := rfl
@[simp] theorem setTretry_req (s : State) (v : Option Nat) : (s.setTretry v).req = s.req := rfl
@[simp] theorem setTretry_mode (s : State) (v : Option Nat) : (s.setTretry v).mode = s.mode := rfl
@[simp] theorem setTretry_blk (s : State) (v : Option Nat) : (s.setTretry v).blk = s.blk := rfl
@[simp] theorem setTretry_blkset (s : State) (v : Option Nat) : (s.setTretry v).blkset = s.blkset := rfl
@[simp] theorem setTretry_retry (s : State) (v : Option Nat) : (s.setTretry v).retry = s.retry := rfl
@[simp] theorem setTretry_tretry (s : State) (v : Option Nat) : (s.setTretry v).tretry = v := rfl
@[simp] theorem setTretry_status (s : State) (v : Option Nat) : (s.setTretry v).status = s.status := rfl
@[simp] theorem setTretry_psize (s : State) (v : Option Nat) : (s.setTretry v).psize = s.psize := rfl
@[simp] theorem setTretry_idx (s : State) (v : Option Nat) : (s.setTretry v).idx = s.idx := rfl
@[simp] theorem setTretry_rblk (s : State) (v : Option Nat) : (s.setTretry v).rblk = s.rblk := rfl
@[simp] theorem setTretry_rcblk (s : State) (v : Option Nat) : (s.setTretry v).rcblk = s.rcblk := rfl
@[simp] theorem setTretry_chkbuf (s : State) (v : Option Nat) : (s.setTretry v).chkbuf = s.chkbuf := rfl
@[simp] theorem setTretry_cidx (s : State) (v : Option Nat) : (s.setTretry v).cidx = s.cidx := rfl
@[simp] theorem setTretry_chklen (s : State) (v : Option Nat) : (s.setTretry v).chklen = s.chklen := rfl
@[simp] theorem setTretry_l (s : State) (v : Option Nat) : (s.setTretry v).l = s.l := rfl
@[simp] theorem setTretry_pbuf (s : State) (v : Option Nat) : (s.setTretry v).pbuf = s.pbuf := rfl
@[simp] theorem setTretry_n (s : State) (v : Option Nat) : (s.setTretry v).n = s.n := rfl
@[simp] theorem setTretry_frame (s : State) (v : Option Nat) : (s.setTretry v).frame = s.frame := rfl
@[simp] theorem setTretry_flen (s : State) (v : Option Nat) : (s.setTretry v).flen = s.flen := rfl
@[simp] theorem setTretry_result (s : State) (v : Option Nat) : (s.setTretry v).result = s.result := rfl
@[simp] theorem setTretry_lastError (s : State) (v : Option Nat) : (s.setTretry v).lastError = s.lastError := rfl
@[simp] theorem setTretry_storageCode (s : State) (v : Option Nat) : (s.setTretry v).storageCode = s.storageCode := rfl
@[simp] theorem setTretry_bytes (s : State) (v : Option Nat) : (s.setTretry v).bytes = s.bytes := rfl
@[simp] theorem setTretry_cfgRetryMax (s : State) (v : Option Nat) : (s.setTretry v).cfgRetryMax = s.cfgRetryMax := rfl
@[simp] theorem setTretry_cfgTxRetryMax (s : State) (v : Option Nat) : (s.setTretry v).cfgTxRetryMax = s.cfgTxRetryMax := rfl
@[simp] theorem setTretry_cfgRxInitMode (s : State) (v : Option Nat) : (s.setTretry v).cfgRxInitMode = s.cfgRxInitMode := rfl
@[simp] theorem setTretry_cfgRxText (s : State) (v : Option Nat) : (s.setTretry v).cfgRxText = s.cfgRxText := rfl
@[simp] theorem setTretry_cfgFirstTagRule (s : State) (v : Option Nat) : (s.setTretry v).cfgFirstTagRule = s.cfgFirstTagRule := rfl
@[simp] theorem setTretry_faulted (s : State) (v : Option Nat) : (s.setTretry v).faulted = s.faulted := rfl
@[simp] theorem setTretry_faultReason (s : State) (v : Option Nat) : (s.setTretry v).faultReason = s.faultReason := rfl
@[simp] theorem setTretry_srcAsked (s : State) (v : Option Nat) : (s.setTretry v).srcAsked = s.srcAsked := rfl
@[simp] theorem setTretry_out (s : State) (v : Option Nat) : (s.setTretry v).out = s.out := rfl
@[simp] theorem setTretry_inbox (s : State) (v : Option Nat) : (s.setTretry v).inbox = s.inbox := rfl
@[simp] theorem setTretry_dp (s : State) (v : Option Nat) : (s.setTretry v).dp = s.dp := rfl
@[simp] theorem setTretry_bytesWidth (s : State) (v : Option Nat) : (s.setTretry v).bytesWidth = s.bytesWidth := rfl
@[simp] theorem setTretry_codes (s : State) (v : Option Nat) : (s.setTretry v).codes = s.codes := rfl

/-! `setStatus` writes `status` and nothing else. -/

@[simp] theorem setStatus_busy (s : State) (v : Option Result) : (s.setStatus v).busy = s.busy := rfl
@[simp] theorem setStatus_role (s : State) (v : Option Result) : (s.setStatus v).role = s.role := rfl
@[simp] theorem setStatus_rxst (s : State) (v : Option Result) : (s.setStatus v).rxst = s.rxst := rfl
@[simp] theorem setStatus_txst (s : State) (v : Option Result) : (s.setStatus v).txst = s.txst := rfl
@[simp] theorem setStatus_ph (s : State) (v : Option Result) : (s.setStatus v).ph = s.ph := rfl
@[simp] theorem setStatus_req (s : State) (v : Option Result) : (s.setStatus v).req = s.req := rfl
@[simp] theorem setStatus_mode (s : State) (v : Option Result) : (s.setStatus v).mode = s.mode := rfl
@[simp] theorem setStatus_blk (s : State) (v : Option Result) : (s.setStatus v).blk = s.blk := rfl
@[simp] theorem setStatus_blkset (s : State) (v : Option Result) : (s.setStatus v).blkset = s.blkset := rfl
@[simp] theorem setStatus_retry (s : State) (v : Option Result) : (s.setStatus v).retry = s.retry := rfl
@[simp] theorem setStatus_tretry (s : State) (v : Option Result) : (s.setStatus v).tretry = s.tretry := rfl
@[simp] theorem setStatus_status (s : State) (v : Option Result) : (s.setStatus v).status = v := rfl
@[simp] theorem setStatus_psize (s : State) (v : Option Result) : (s.setStatus v).psize = s.psize := rfl
@[simp] theorem setStatus_idx (s : State) (v : Option Result) : (s.setStatus v).idx = s.idx := rfl
@[simp] theorem setStatus_rblk (s : State) (v : Option Result) : (s.setStatus v).rblk = s.rblk := rfl
@[simp] theorem setStatus_rcblk (s : State) (v : Option Result) : (s.setStatus v).rcblk = s.rcblk := rfl
@[simp] theorem setStatus_chkbuf (s : State) (v : Option Result) : (s.setStatus v).chkbuf = s.chkbuf := rfl
@[simp] theorem setStatus_cidx (s : State) (v : Option Result) : (s.setStatus v).cidx = s.cidx := rfl
@[simp] theorem setStatus_chklen (s : State) (v : Option Result) : (s.setStatus v).chklen = s.chklen := rfl
@[simp] theorem setStatus_l (s : State) (v : Option Result) : (s.setStatus v).l = s.l := rfl
@[simp] theorem setStatus_pbuf (s : State) (v : Option Result) : (s.setStatus v).pbuf = s.pbuf := rfl
@[simp] theorem setStatus_n (s : State) (v : Option Result) : (s.setStatus v).n = s.n := rfl
@[simp] theorem setStatus_frame (s : State) (v : Option Result) : (s.setStatus v).frame = s.frame := rfl
@[simp] theorem setStatus_flen (s : State) (v : Option Result) : (s.setStatus v).flen = s.flen := rfl
@[simp] theorem setStatus_result (s : State) (v : Option Result) : (s.setStatus v).result = s.result := rfl
@[simp] theorem setStatus_lastError (s : State) (v : Option Result) : (s.setStatus v).lastError = s.lastError := rfl
@[simp] theorem setStatus_storageCode (s : State) (v : Option Result) : (s.setStatus v).storageCode = s.storageCode := rfl
@[simp] theorem setStatus_bytes (s : State) (v : Option Result) : (s.setStatus v).bytes = s.bytes := rfl
@[simp] theorem setStatus_cfgRetryMax (s : State) (v : Option Result) : (s.setStatus v).cfgRetryMax = s.cfgRetryMax := rfl
@[simp] theorem setStatus_cfgTxRetryMax (s : State) (v : Option Result) : (s.setStatus v).cfgTxRetryMax = s.cfgTxRetryMax := rfl
@[simp] theorem setStatus_cfgRxInitMode (s : State) (v : Option Result) : (s.setStatus v).cfgRxInitMode = s.cfgRxInitMode := rfl
@[simp] theorem setStatus_cfgRxText (s : State) (v : Option Result) : (s.setStatus v).cfgRxText = s.cfgRxText := rfl
@[simp] theorem setStatus_cfgFirstTagRule (s : State) (v : Option Result) : (s.setStatus v).cfgFirstTagRule = s.cfgFirstTagRule := rfl
@[simp] theorem setStatus_faulted (s : State) (v : Option Result) : (s.setStatus v).faulted = s.faulted := rfl
@[simp] theorem setStatus_faultReason (s : State) (v : Option Result) : (s.setStatus v).faultReason = s.faultReason := rfl
@[simp] theorem setStatus_srcAsked (s : State) (v : Option Result) : (s.setStatus v).srcAsked = s.srcAsked := rfl
@[simp] theorem setStatus_out (s : State) (v : Option Result) : (s.setStatus v).out = s.out := rfl
@[simp] theorem setStatus_inbox (s : State) (v : Option Result) : (s.setStatus v).inbox = s.inbox := rfl
@[simp] theorem setStatus_dp (s : State) (v : Option Result) : (s.setStatus v).dp = s.dp := rfl
@[simp] theorem setStatus_bytesWidth (s : State) (v : Option Result) : (s.setStatus v).bytesWidth = s.bytesWidth := rfl
@[simp] theorem setStatus_codes (s : State) (v : Option Result) : (s.setStatus v).codes = s.codes := rfl

/-! `setPsize` writes `psize` and nothing else. -/

@[simp] theorem setPsize_busy (s : State) (v : Option Nat) : (s.setPsize v).busy = s.busy := rfl
@[simp] theorem setPsize_role (s : State) (v : Option Nat) : (s.setPsize v).role = s.role := rfl
@[simp] theorem setPsize_rxst (s : State) (v : Option Nat) : (s.setPsize v).rxst = s.rxst := rfl
@[simp] theorem setPsize_txst (s : State) (v : Option Nat) : (s.setPsize v).txst = s.txst := rfl
@[simp] theorem setPsize_ph (s : State) (v : Option Nat) : (s.setPsize v).ph = s.ph := rfl
@[simp] theorem setPsize_req (s : State) (v : Option Nat) : (s.setPsize v).req = s.req := rfl
@[simp] theorem setPsize_mode (s : State) (v : Option Nat) : (s.setPsize v).mode = s.mode := rfl
@[simp] theorem setPsize_blk (s : State) (v : Option Nat) : (s.setPsize v).blk = s.blk := rfl
@[simp] theorem setPsize_blkset (s : State) (v : Option Nat) : (s.setPsize v).blkset = s.blkset := rfl
@[simp] theorem setPsize_retry (s : State) (v : Option Nat) : (s.setPsize v).retry = s.retry := rfl
@[simp] theorem setPsize_tretry (s : State) (v : Option Nat) : (s.setPsize v).tretry = s.tretry := rfl
@[simp] theorem setPsize_status (s : State) (v : Option Nat) : (s.setPsize v).status = s.status := rfl
@[simp] theorem setPsize_psize (s : State) (v : Option Nat) : (s.setPsize v).psize = v := rfl
@[simp] theorem setPsize_idx (s : State) (v : Option Nat) : (s.setPsize v).idx = s.idx := rfl
@[simp] theorem setPsize_rblk (s : State) (v : Option Nat) : (s.setPsize v).rblk = s.rblk := rfl
@[simp] theorem setPsize_rcblk (s : State) (v : Option Nat) : (s.setPsize v).rcblk = s.rcblk := rfl
@[simp] theorem setPsize_chkbuf (s : State) (v : Option Nat) : (s.setPsize v).chkbuf = s.chkbuf := rfl
@[simp] theorem setPsize_cidx (s : State) (v : Option Nat) : (s.setPsize v).cidx = s.cidx := rfl
@[simp] theorem setPsize_chklen (s : State) (v : Option Nat) : (s.setPsize v).chklen = s.chklen := rfl
@[simp] theorem setPsize_l (s : State) (v : Option Nat) : (s.setPsize v).l = s.l := rfl
@[simp] theorem setPsize_pbuf (s : State) (v : Option Nat) : (s.setPsize v).pbuf = s.pbuf := rfl
@[simp] theorem setPsize_n (s : State) (v : Option Nat) : (s.setPsize v).n = s.n := rfl
@[simp] theorem setPsize_frame (s : State) (v : Option Nat) : (s.setPsize v).frame = s.frame := rfl
@[simp] theorem setPsize_flen (s : State) (v : Option Nat) : (s.setPsize v).flen = s.flen := rfl
@[simp] theorem setPsize_result (s : State) (v : Option Nat) : (s.setPsize v).result = s.result := rfl
@[simp] theorem setPsize_lastError (s : State) (v : Option Nat) : (s.setPsize v).lastError = s.lastError := rfl
@[simp] theorem setPsize_storageCode (s : State) (v : Option Nat) : (s.setPsize v).storageCode = s.storageCode := rfl
@[simp] theorem setPsize_bytes (s : State) (v : Option Nat) : (s.setPsize v).bytes = s.bytes := rfl
@[simp] theorem setPsize_cfgRetryMax (s : State) (v : Option Nat) : (s.setPsize v).cfgRetryMax = s.cfgRetryMax := rfl
@[simp] theorem setPsize_cfgTxRetryMax (s : State) (v : Option Nat) : (s.setPsize v).cfgTxRetryMax = s.cfgTxRetryMax := rfl
@[simp] theorem setPsize_cfgRxInitMode (s : State) (v : Option Nat) : (s.setPsize v).cfgRxInitMode = s.cfgRxInitMode := rfl
@[simp] theorem setPsize_cfgRxText (s : State) (v : Option Nat) : (s.setPsize v).cfgRxText = s.cfgRxText := rfl
@[simp] theorem setPsize_cfgFirstTagRule (s : State) (v : Option Nat) : (s.setPsize v).cfgFirstTagRule = s.cfgFirstTagRule := rfl
@[simp] theorem setPsize_faulted (s : State) (v : Option Nat) : (s.setPsize v).faulted = s.faulted := rfl
@[simp] theorem setPsize_faultReason (s : State) (v : Option Nat) : (s.setPsize v).faultReason = s.faultReason := rfl
@[simp] theorem setPsize_srcAsked (s : State) (v : Option Nat) : (s.setPsize v).srcAsked = s.srcAsked := rfl
@[simp] theorem setPsize_out (s : State) (v : Option Nat) : (s.setPsize v).out = s.out := rfl
@[simp] theorem setPsize_inbox (s : State) (v : Option Nat) : (s.setPsize v).inbox = s.inbox := rfl
@[simp] theorem setPsize_dp (s : State) (v : Option Nat) : (s.setPsize v).dp = s.dp := rfl
@[simp] theorem setPsize_bytesWidth (s : State) (v : Option Nat) : (s.setPsize v).bytesWidth = s.bytesWidth := rfl
@[simp] theorem setPsize_codes (s : State) (v : Option Nat) : (s.setPsize v).codes = s.codes := rfl

/-! `setIdx` writes `idx` and nothing else. -/

@[simp] theorem setIdx_busy (s : State) (v : Option Nat) : (s.setIdx v).busy = s.busy := rfl
@[simp] theorem setIdx_role (s : State) (v : Option Nat) : (s.setIdx v).role = s.role := rfl
@[simp] theorem setIdx_rxst (s : State) (v : Option Nat) : (s.setIdx v).rxst = s.rxst := rfl
@[simp] theorem setIdx_txst (s : State) (v : Option Nat) : (s.setIdx v).txst = s.txst := rfl
@[simp] theorem setIdx_ph (s : State) (v : Option Nat) : (s.setIdx v).ph = s.ph := rfl
@[simp] theorem setIdx_req (s : State) (v : Option Nat) : (s.setIdx v).req = s.req := rfl
@[simp] theorem setIdx_mode (s : State) (v : Option Nat) : (s.setIdx v).mode = s.mode := rfl
@[simp] theorem setIdx_blk (s : State) (v : Option Nat) : (s.setIdx v).blk = s.blk := rfl
@[simp] theorem setIdx_blkset (s : State) (v : Option Nat) : (s.setIdx v).blkset = s.blkset := rfl
@[simp] theorem setIdx_retry (s : State) (v : Option Nat) : (s.setIdx v).retry = s.retry := rfl
@[simp] theorem setIdx_tretry (s : State) (v : Option Nat) : (s.setIdx v).tretry = s.tretry := rfl
@[simp] theorem setIdx_status (s : State) (v : Option Nat) : (s.setIdx v).status = s.status := rfl
@[simp] theorem setIdx_psize (s : State) (v : Option Nat) : (s.setIdx v).psize = s.psize := rfl
@[simp] theorem setIdx_idx (s : State) (v : Option Nat) : (s.setIdx v).idx = v := rfl
@[simp] theorem setIdx_rblk (s : State) (v : Option Nat) : (s.setIdx v).rblk = s.rblk := rfl
@[simp] theorem setIdx_rcblk (s : State) (v : Option Nat) : (s.setIdx v).rcblk = s.rcblk := rfl
@[simp] theorem setIdx_chkbuf (s : State) (v : Option Nat) : (s.setIdx v).chkbuf = s.chkbuf := rfl
@[simp] theorem setIdx_cidx (s : State) (v : Option Nat) : (s.setIdx v).cidx = s.cidx := rfl
@[simp] theorem setIdx_chklen (s : State) (v : Option Nat) : (s.setIdx v).chklen = s.chklen := rfl
@[simp] theorem setIdx_l (s : State) (v : Option Nat) : (s.setIdx v).l = s.l := rfl
@[simp] theorem setIdx_pbuf (s : State) (v : Option Nat) : (s.setIdx v).pbuf = s.pbuf := rfl
@[simp] theorem setIdx_n (s : State) (v : Option Nat) : (s.setIdx v).n = s.n := rfl
@[simp] theorem setIdx_frame (s : State) (v : Option Nat) : (s.setIdx v).frame = s.frame := rfl
@[simp] theorem setIdx_flen (s : State) (v : Option Nat) : (s.setIdx v).flen = s.flen := rfl
@[simp] theorem setIdx_result (s : State) (v : Option Nat) : (s.setIdx v).result = s.result := rfl
@[simp] theorem setIdx_lastError (s : State) (v : Option Nat) : (s.setIdx v).lastError = s.lastError := rfl
@[simp] theorem setIdx_storageCode (s : State) (v : Option Nat) : (s.setIdx v).storageCode = s.storageCode := rfl
@[simp] theorem setIdx_bytes (s : State) (v : Option Nat) : (s.setIdx v).bytes = s.bytes := rfl
@[simp] theorem setIdx_cfgRetryMax (s : State) (v : Option Nat) : (s.setIdx v).cfgRetryMax = s.cfgRetryMax := rfl
@[simp] theorem setIdx_cfgTxRetryMax (s : State) (v : Option Nat) : (s.setIdx v).cfgTxRetryMax = s.cfgTxRetryMax := rfl
@[simp] theorem setIdx_cfgRxInitMode (s : State) (v : Option Nat) : (s.setIdx v).cfgRxInitMode = s.cfgRxInitMode := rfl
@[simp] theorem setIdx_cfgRxText (s : State) (v : Option Nat) : (s.setIdx v).cfgRxText = s.cfgRxText := rfl
@[simp] theorem setIdx_cfgFirstTagRule (s : State) (v : Option Nat) : (s.setIdx v).cfgFirstTagRule = s.cfgFirstTagRule := rfl
@[simp] theorem setIdx_faulted (s : State) (v : Option Nat) : (s.setIdx v).faulted = s.faulted := rfl
@[simp] theorem setIdx_faultReason (s : State) (v : Option Nat) : (s.setIdx v).faultReason = s.faultReason := rfl
@[simp] theorem setIdx_srcAsked (s : State) (v : Option Nat) : (s.setIdx v).srcAsked = s.srcAsked := rfl
@[simp] theorem setIdx_out (s : State) (v : Option Nat) : (s.setIdx v).out = s.out := rfl
@[simp] theorem setIdx_inbox (s : State) (v : Option Nat) : (s.setIdx v).inbox = s.inbox := rfl
@[simp] theorem setIdx_dp (s : State) (v : Option Nat) : (s.setIdx v).dp = s.dp := rfl
@[simp] theorem setIdx_bytesWidth (s : State) (v : Option Nat) : (s.setIdx v).bytesWidth = s.bytesWidth := rfl
@[simp] theorem setIdx_codes (s : State) (v : Option Nat) : (s.setIdx v).codes = s.codes := rfl

/-! `setRblk` writes `rblk` and nothing else. -/

@[simp] theorem setRblk_busy (s : State) (v : Option Byte) : (s.setRblk v).busy = s.busy := rfl
@[simp] theorem setRblk_role (s : State) (v : Option Byte) : (s.setRblk v).role = s.role := rfl
@[simp] theorem setRblk_rxst (s : State) (v : Option Byte) : (s.setRblk v).rxst = s.rxst := rfl
@[simp] theorem setRblk_txst (s : State) (v : Option Byte) : (s.setRblk v).txst = s.txst := rfl
@[simp] theorem setRblk_ph (s : State) (v : Option Byte) : (s.setRblk v).ph = s.ph := rfl
@[simp] theorem setRblk_req (s : State) (v : Option Byte) : (s.setRblk v).req = s.req := rfl
@[simp] theorem setRblk_mode (s : State) (v : Option Byte) : (s.setRblk v).mode = s.mode := rfl
@[simp] theorem setRblk_blk (s : State) (v : Option Byte) : (s.setRblk v).blk = s.blk := rfl
@[simp] theorem setRblk_blkset (s : State) (v : Option Byte) : (s.setRblk v).blkset = s.blkset := rfl
@[simp] theorem setRblk_retry (s : State) (v : Option Byte) : (s.setRblk v).retry = s.retry := rfl
@[simp] theorem setRblk_tretry (s : State) (v : Option Byte) : (s.setRblk v).tretry = s.tretry := rfl
@[simp] theorem setRblk_status (s : State) (v : Option Byte) : (s.setRblk v).status = s.status := rfl
@[simp] theorem setRblk_psize (s : State) (v : Option Byte) : (s.setRblk v).psize = s.psize := rfl
@[simp] theorem setRblk_idx (s : State) (v : Option Byte) : (s.setRblk v).idx = s.idx := rfl
@[simp] theorem setRblk_rblk (s : State) (v : Option Byte) : (s.setRblk v).rblk = v := rfl
@[simp] theorem setRblk_rcblk (s : State) (v : Option Byte) : (s.setRblk v).rcblk = s.rcblk := rfl
@[simp] theorem setRblk_chkbuf (s : State) (v : Option Byte) : (s.setRblk v).chkbuf = s.chkbuf := rfl
@[simp] theorem setRblk_cidx (s : State) (v : Option Byte) : (s.setRblk v).cidx = s.cidx := rfl
@[simp] theorem setRblk_chklen (s : State) (v : Option Byte) : (s.setRblk v).chklen = s.chklen := rfl
@[simp] theorem setRblk_l (s : State) (v : Option Byte) : (s.setRblk v).l = s.l := rfl
@[simp] theorem setRblk_pbuf (s : State) (v : Option Byte) : (s.setRblk v).pbuf = s.pbuf := rfl
@[simp] theorem setRblk_n (s : State) (v : Option Byte) : (s.setRblk v).n = s.n := rfl
@[simp] theorem setRblk_frame (s : State) (v : Option Byte) : (s.setRblk v).frame = s.frame := rfl
@[simp] theorem setRblk_flen (s : State) (v : Option Byte) : (s.setRblk v).flen = s.flen := rfl
@[simp] theorem setRblk_result (s : State) (v : Option Byte) : (s.setRblk v).result = s.result := rfl
@[simp] theorem setRblk_lastError (s : State) (v : Option Byte) : (s.setRblk v).lastError = s.lastError := rfl
@[simp] theorem setRblk_storageCode (s : State) (v : Option Byte) : (s.setRblk v).storageCode = s.storageCode := rfl
@[simp] theorem setRblk_bytes (s : State) (v : Option Byte) : (s.setRblk v).bytes = s.bytes := rfl
@[simp] theorem setRblk_cfgRetryMax (s : State) (v : Option Byte) : (s.setRblk v).cfgRetryMax = s.cfgRetryMax := rfl
@[simp] theorem setRblk_cfgTxRetryMax (s : State) (v : Option Byte) : (s.setRblk v).cfgTxRetryMax = s.cfgTxRetryMax := rfl
@[simp] theorem setRblk_cfgRxInitMode (s : State) (v : Option Byte) : (s.setRblk v).cfgRxInitMode = s.cfgRxInitMode := rfl
@[simp] theorem setRblk_cfgRxText (s : State) (v : Option Byte) : (s.setRblk v).cfgRxText = s.cfgRxText := rfl
@[simp] theorem setRblk_cfgFirstTagRule (s : State) (v : Option Byte) : (s.setRblk v).cfgFirstTagRule = s.cfgFirstTagRule := rfl
@[simp] theorem setRblk_faulted (s : State) (v : Option Byte) : (s.setRblk v).faulted = s.faulted := rfl
@[simp] theorem setRblk_faultReason (s : State) (v : Option Byte) : (s.setRblk v).faultReason = s.faultReason := rfl
@[simp] theorem setRblk_srcAsked (s : State) (v : Option Byte) : (s.setRblk v).srcAsked = s.srcAsked := rfl
@[simp] theorem setRblk_out (s : State) (v : Option Byte) : (s.setRblk v).out = s.out := rfl
@[simp] theorem setRblk_inbox (s : State) (v : Option Byte) : (s.setRblk v).inbox = s.inbox := rfl
@[simp] theorem setRblk_dp (s : State) (v : Option Byte) : (s.setRblk v).dp = s.dp := rfl
@[simp] theorem setRblk_bytesWidth (s : State) (v : Option Byte) : (s.setRblk v).bytesWidth = s.bytesWidth := rfl
@[simp] theorem setRblk_codes (s : State) (v : Option Byte) : (s.setRblk v).codes = s.codes := rfl

/-! `setRcblk` writes `rcblk` and nothing else. -/

@[simp] theorem setRcblk_busy (s : State) (v : Option Byte) : (s.setRcblk v).busy = s.busy := rfl
@[simp] theorem setRcblk_role (s : State) (v : Option Byte) : (s.setRcblk v).role = s.role := rfl
@[simp] theorem setRcblk_rxst (s : State) (v : Option Byte) : (s.setRcblk v).rxst = s.rxst := rfl
@[simp] theorem setRcblk_txst (s : State) (v : Option Byte) : (s.setRcblk v).txst = s.txst := rfl
@[simp] theorem setRcblk_ph (s : State) (v : Option Byte) : (s.setRcblk v).ph = s.ph := rfl
@[simp] theorem setRcblk_req (s : State) (v : Option Byte) : (s.setRcblk v).req = s.req := rfl
@[simp] theorem setRcblk_mode (s : State) (v : Option Byte) : (s.setRcblk v).mode = s.mode := rfl
@[simp] theorem setRcblk_blk (s : State) (v : Option Byte) : (s.setRcblk v).blk = s.blk := rfl
@[simp] theorem setRcblk_blkset (s : State) (v : Option Byte) : (s.setRcblk v).blkset = s.blkset := rfl
@[simp] theorem setRcblk_retry (s : State) (v : Option Byte) : (s.setRcblk v).retry = s.retry := rfl
@[simp] theorem setRcblk_tretry (s : State) (v : Option Byte) : (s.setRcblk v).tretry = s.tretry := rfl
@[simp] theorem setRcblk_status (s : State) (v : Option Byte) : (s.setRcblk v).status = s.status := rfl
@[simp] theorem setRcblk_psize (s : State) (v : Option Byte) : (s.setRcblk v).psize = s.psize := rfl
@[simp] theorem setRcblk_idx (s : State) (v : Option Byte) : (s.setRcblk v).idx = s.idx := rfl
@[simp] theorem setRcblk_rblk (s : State) (v : Option Byte) : (s.setRcblk v).rblk = s.rblk := rfl
@[simp] theorem setRcblk_rcblk (s : State) (v : Option Byte) : (s.setRcblk v).rcblk = v := rfl
@[simp] theorem setRcblk_chkbuf (s : State) (v : Option Byte) : (s.setRcblk v).chkbuf = s.chkbuf := rfl
@[simp] theorem setRcblk_cidx (s : State) (v : Option Byte) : (s.setRcblk v).cidx = s.cidx := rfl
@[simp] theorem setRcblk_chklen (s : State) (v : Option Byte) : (s.setRcblk v).chklen = s.chklen := rfl
@[simp] theorem setRcblk_l (s : State) (v : Option Byte) : (s.setRcblk v).l = s.l := rfl
@[simp] theorem setRcblk_pbuf (s : State) (v : Option Byte) : (s.setRcblk v).pbuf = s.pbuf := rfl
@[simp] theorem setRcblk_n (s : State) (v : Option Byte) : (s.setRcblk v).n = s.n := rfl
@[simp] theorem setRcblk_frame (s : State) (v : Option Byte) : (s.setRcblk v).frame = s.frame := rfl
@[simp] theorem setRcblk_flen (s : State) (v : Option Byte) : (s.setRcblk v).flen = s.flen := rfl
@[simp] theorem setRcblk_result (s : State) (v : Option Byte) : (s.setRcblk v).result = s.result := rfl
@[simp] theorem setRcblk_lastError (s : State) (v : Option Byte) : (s.setRcblk v).lastError = s.lastError := rfl
@[simp] theorem setRcblk_storageCode (s : State) (v : Option Byte) : (s.setRcblk v).storageCode = s.storageCode := rfl
@[simp] theorem setRcblk_bytes (s : State) (v : Option Byte) : (s.setRcblk v).bytes = s.bytes := rfl
@[simp] theorem setRcblk_cfgRetryMax (s : State) (v : Option Byte) : (s.setRcblk v).cfgRetryMax = s.cfgRetryMax := rfl
@[simp] theorem setRcblk_cfgTxRetryMax (s : State) (v : Option Byte) : (s.setRcblk v).cfgTxRetryMax = s.cfgTxRetryMax := rfl
@[simp] theorem setRcblk_cfgRxInitMode (s : State) (v : Option Byte) : (s.setRcblk v).cfgRxInitMode = s.cfgRxInitMode := rfl
@[simp] theorem setRcblk_cfgRxText (s : State) (v : Option Byte) : (s.setRcblk v).cfgRxText = s.cfgRxText := rfl
@[simp] theorem setRcblk_cfgFirstTagRule (s : State) (v : Option Byte) : (s.setRcblk v).cfgFirstTagRule = s.cfgFirstTagRule := rfl
@[simp] theorem setRcblk_faulted (s : State) (v : Option Byte) : (s.setRcblk v).faulted = s.faulted := rfl
@[simp] theorem setRcblk_faultReason (s : State) (v : Option Byte) : (s.setRcblk v).faultReason = s.faultReason := rfl
@[simp] theorem setRcblk_srcAsked (s : State) (v : Option Byte) : (s.setRcblk v).srcAsked = s.srcAsked := rfl
@[simp] theorem setRcblk_out (s : State) (v : Option Byte) : (s.setRcblk v).out = s.out := rfl
@[simp] theorem setRcblk_inbox (s : State) (v : Option Byte) : (s.setRcblk v).inbox = s.inbox := rfl
@[simp] theorem setRcblk_dp (s : State) (v : Option Byte) : (s.setRcblk v).dp = s.dp := rfl
@[simp] theorem setRcblk_bytesWidth (s : State) (v : Option Byte) : (s.setRcblk v).bytesWidth = s.bytesWidth := rfl
@[simp] theorem setRcblk_codes (s : State) (v : Option Byte) : (s.setRcblk v).codes = s.codes := rfl

/-! `setChkbuf` writes `chkbuf` and nothing else. -/

@[simp] theorem setChkbuf_busy (s : State) (v : List Host.Cell) : (s.setChkbuf v).busy = s.busy := rfl
@[simp] theorem setChkbuf_role (s : State) (v : List Host.Cell) : (s.setChkbuf v).role = s.role := rfl
@[simp] theorem setChkbuf_rxst (s : State) (v : List Host.Cell) : (s.setChkbuf v).rxst = s.rxst := rfl
@[simp] theorem setChkbuf_txst (s : State) (v : List Host.Cell) : (s.setChkbuf v).txst = s.txst := rfl
@[simp] theorem setChkbuf_ph (s : State) (v : List Host.Cell) : (s.setChkbuf v).ph = s.ph := rfl
@[simp] theorem setChkbuf_req (s : State) (v : List Host.Cell) : (s.setChkbuf v).req = s.req := rfl
@[simp] theorem setChkbuf_mode (s : State) (v : List Host.Cell) : (s.setChkbuf v).mode = s.mode := rfl
@[simp] theorem setChkbuf_blk (s : State) (v : List Host.Cell) : (s.setChkbuf v).blk = s.blk := rfl
@[simp] theorem setChkbuf_blkset (s : State) (v : List Host.Cell) : (s.setChkbuf v).blkset = s.blkset := rfl
@[simp] theorem setChkbuf_retry (s : State) (v : List Host.Cell) : (s.setChkbuf v).retry = s.retry := rfl
@[simp] theorem setChkbuf_tretry (s : State) (v : List Host.Cell) : (s.setChkbuf v).tretry = s.tretry := rfl
@[simp] theorem setChkbuf_status (s : State) (v : List Host.Cell) : (s.setChkbuf v).status = s.status := rfl
@[simp] theorem setChkbuf_psize (s : State) (v : List Host.Cell) : (s.setChkbuf v).psize = s.psize := rfl
@[simp] theorem setChkbuf_idx (s : State) (v : List Host.Cell) : (s.setChkbuf v).idx = s.idx := rfl
@[simp] theorem setChkbuf_rblk (s : State) (v : List Host.Cell) : (s.setChkbuf v).rblk = s.rblk := rfl
@[simp] theorem setChkbuf_rcblk (s : State) (v : List Host.Cell) : (s.setChkbuf v).rcblk = s.rcblk := rfl
@[simp] theorem setChkbuf_chkbuf (s : State) (v : List Host.Cell) : (s.setChkbuf v).chkbuf = v := rfl
@[simp] theorem setChkbuf_cidx (s : State) (v : List Host.Cell) : (s.setChkbuf v).cidx = s.cidx := rfl
@[simp] theorem setChkbuf_chklen (s : State) (v : List Host.Cell) : (s.setChkbuf v).chklen = s.chklen := rfl
@[simp] theorem setChkbuf_l (s : State) (v : List Host.Cell) : (s.setChkbuf v).l = s.l := rfl
@[simp] theorem setChkbuf_pbuf (s : State) (v : List Host.Cell) : (s.setChkbuf v).pbuf = s.pbuf := rfl
@[simp] theorem setChkbuf_n (s : State) (v : List Host.Cell) : (s.setChkbuf v).n = s.n := rfl
@[simp] theorem setChkbuf_frame (s : State) (v : List Host.Cell) : (s.setChkbuf v).frame = s.frame := rfl
@[simp] theorem setChkbuf_flen (s : State) (v : List Host.Cell) : (s.setChkbuf v).flen = s.flen := rfl
@[simp] theorem setChkbuf_result (s : State) (v : List Host.Cell) : (s.setChkbuf v).result = s.result := rfl
@[simp] theorem setChkbuf_lastError (s : State) (v : List Host.Cell) : (s.setChkbuf v).lastError = s.lastError := rfl
@[simp] theorem setChkbuf_storageCode (s : State) (v : List Host.Cell) : (s.setChkbuf v).storageCode = s.storageCode := rfl
@[simp] theorem setChkbuf_bytes (s : State) (v : List Host.Cell) : (s.setChkbuf v).bytes = s.bytes := rfl
@[simp] theorem setChkbuf_cfgRetryMax (s : State) (v : List Host.Cell) : (s.setChkbuf v).cfgRetryMax = s.cfgRetryMax := rfl
@[simp] theorem setChkbuf_cfgTxRetryMax (s : State) (v : List Host.Cell) : (s.setChkbuf v).cfgTxRetryMax = s.cfgTxRetryMax := rfl
@[simp] theorem setChkbuf_cfgRxInitMode (s : State) (v : List Host.Cell) : (s.setChkbuf v).cfgRxInitMode = s.cfgRxInitMode := rfl
@[simp] theorem setChkbuf_cfgRxText (s : State) (v : List Host.Cell) : (s.setChkbuf v).cfgRxText = s.cfgRxText := rfl
@[simp] theorem setChkbuf_cfgFirstTagRule (s : State) (v : List Host.Cell) : (s.setChkbuf v).cfgFirstTagRule = s.cfgFirstTagRule := rfl
@[simp] theorem setChkbuf_faulted (s : State) (v : List Host.Cell) : (s.setChkbuf v).faulted = s.faulted := rfl
@[simp] theorem setChkbuf_faultReason (s : State) (v : List Host.Cell) : (s.setChkbuf v).faultReason = s.faultReason := rfl
@[simp] theorem setChkbuf_srcAsked (s : State) (v : List Host.Cell) : (s.setChkbuf v).srcAsked = s.srcAsked := rfl
@[simp] theorem setChkbuf_out (s : State) (v : List Host.Cell) : (s.setChkbuf v).out = s.out := rfl
@[simp] theorem setChkbuf_inbox (s : State) (v : List Host.Cell) : (s.setChkbuf v).inbox = s.inbox := rfl
@[simp] theorem setChkbuf_dp (s : State) (v : List Host.Cell) : (s.setChkbuf v).dp = s.dp := rfl
@[simp] theorem setChkbuf_bytesWidth (s : State) (v : List Host.Cell) : (s.setChkbuf v).bytesWidth = s.bytesWidth := rfl
@[simp] theorem setChkbuf_codes (s : State) (v : List Host.Cell) : (s.setChkbuf v).codes = s.codes := rfl

/-! `setCidx` writes `cidx` and nothing else. -/

@[simp] theorem setCidx_busy (s : State) (v : Option Nat) : (s.setCidx v).busy = s.busy := rfl
@[simp] theorem setCidx_role (s : State) (v : Option Nat) : (s.setCidx v).role = s.role := rfl
@[simp] theorem setCidx_rxst (s : State) (v : Option Nat) : (s.setCidx v).rxst = s.rxst := rfl
@[simp] theorem setCidx_txst (s : State) (v : Option Nat) : (s.setCidx v).txst = s.txst := rfl
@[simp] theorem setCidx_ph (s : State) (v : Option Nat) : (s.setCidx v).ph = s.ph := rfl
@[simp] theorem setCidx_req (s : State) (v : Option Nat) : (s.setCidx v).req = s.req := rfl
@[simp] theorem setCidx_mode (s : State) (v : Option Nat) : (s.setCidx v).mode = s.mode := rfl
@[simp] theorem setCidx_blk (s : State) (v : Option Nat) : (s.setCidx v).blk = s.blk := rfl
@[simp] theorem setCidx_blkset (s : State) (v : Option Nat) : (s.setCidx v).blkset = s.blkset := rfl
@[simp] theorem setCidx_retry (s : State) (v : Option Nat) : (s.setCidx v).retry = s.retry := rfl
@[simp] theorem setCidx_tretry (s : State) (v : Option Nat) : (s.setCidx v).tretry = s.tretry := rfl
@[simp] theorem setCidx_status (s : State) (v : Option Nat) : (s.setCidx v).status = s.status := rfl
@[simp] theorem setCidx_psize (s : State) (v : Option Nat) : (s.setCidx v).psize = s.psize := rfl
@[simp] theorem setCidx_idx (s : State) (v : Option Nat) : (s.setCidx v).idx = s.idx := rfl
@[simp] theorem setCidx_rblk (s : State) (v : Option Nat) : (s.setCidx v).rblk = s.rblk := rfl
@[simp] theorem setCidx_rcblk (s : State) (v : Option Nat) : (s.setCidx v).rcblk = s.rcblk := rfl
@[simp] theorem setCidx_chkbuf (s : State) (v : Option Nat) : (s.setCidx v).chkbuf = s.chkbuf := rfl
@[simp] theorem setCidx_cidx (s : State) (v : Option Nat) : (s.setCidx v).cidx = v := rfl
@[simp] theorem setCidx_chklen (s : State) (v : Option Nat) : (s.setCidx v).chklen = s.chklen := rfl
@[simp] theorem setCidx_l (s : State) (v : Option Nat) : (s.setCidx v).l = s.l := rfl
@[simp] theorem setCidx_pbuf (s : State) (v : Option Nat) : (s.setCidx v).pbuf = s.pbuf := rfl
@[simp] theorem setCidx_n (s : State) (v : Option Nat) : (s.setCidx v).n = s.n := rfl
@[simp] theorem setCidx_frame (s : State) (v : Option Nat) : (s.setCidx v).frame = s.frame := rfl
@[simp] theorem setCidx_flen (s : State) (v : Option Nat) : (s.setCidx v).flen = s.flen := rfl
@[simp] theorem setCidx_result (s : State) (v : Option Nat) : (s.setCidx v).result = s.result := rfl
@[simp] theorem setCidx_lastError (s : State) (v : Option Nat) : (s.setCidx v).lastError = s.lastError := rfl
@[simp] theorem setCidx_storageCode (s : State) (v : Option Nat) : (s.setCidx v).storageCode = s.storageCode := rfl
@[simp] theorem setCidx_bytes (s : State) (v : Option Nat) : (s.setCidx v).bytes = s.bytes := rfl
@[simp] theorem setCidx_cfgRetryMax (s : State) (v : Option Nat) : (s.setCidx v).cfgRetryMax = s.cfgRetryMax := rfl
@[simp] theorem setCidx_cfgTxRetryMax (s : State) (v : Option Nat) : (s.setCidx v).cfgTxRetryMax = s.cfgTxRetryMax := rfl
@[simp] theorem setCidx_cfgRxInitMode (s : State) (v : Option Nat) : (s.setCidx v).cfgRxInitMode = s.cfgRxInitMode := rfl
@[simp] theorem setCidx_cfgRxText (s : State) (v : Option Nat) : (s.setCidx v).cfgRxText = s.cfgRxText := rfl
@[simp] theorem setCidx_cfgFirstTagRule (s : State) (v : Option Nat) : (s.setCidx v).cfgFirstTagRule = s.cfgFirstTagRule := rfl
@[simp] theorem setCidx_faulted (s : State) (v : Option Nat) : (s.setCidx v).faulted = s.faulted := rfl
@[simp] theorem setCidx_faultReason (s : State) (v : Option Nat) : (s.setCidx v).faultReason = s.faultReason := rfl
@[simp] theorem setCidx_srcAsked (s : State) (v : Option Nat) : (s.setCidx v).srcAsked = s.srcAsked := rfl
@[simp] theorem setCidx_out (s : State) (v : Option Nat) : (s.setCidx v).out = s.out := rfl
@[simp] theorem setCidx_inbox (s : State) (v : Option Nat) : (s.setCidx v).inbox = s.inbox := rfl
@[simp] theorem setCidx_dp (s : State) (v : Option Nat) : (s.setCidx v).dp = s.dp := rfl
@[simp] theorem setCidx_bytesWidth (s : State) (v : Option Nat) : (s.setCidx v).bytesWidth = s.bytesWidth := rfl
@[simp] theorem setCidx_codes (s : State) (v : Option Nat) : (s.setCidx v).codes = s.codes := rfl

/-! `setChklen` writes `chklen` and nothing else. -/

@[simp] theorem setChklen_busy (s : State) (v : Option Nat) : (s.setChklen v).busy = s.busy := rfl
@[simp] theorem setChklen_role (s : State) (v : Option Nat) : (s.setChklen v).role = s.role := rfl
@[simp] theorem setChklen_rxst (s : State) (v : Option Nat) : (s.setChklen v).rxst = s.rxst := rfl
@[simp] theorem setChklen_txst (s : State) (v : Option Nat) : (s.setChklen v).txst = s.txst := rfl
@[simp] theorem setChklen_ph (s : State) (v : Option Nat) : (s.setChklen v).ph = s.ph := rfl
@[simp] theorem setChklen_req (s : State) (v : Option Nat) : (s.setChklen v).req = s.req := rfl
@[simp] theorem setChklen_mode (s : State) (v : Option Nat) : (s.setChklen v).mode = s.mode := rfl
@[simp] theorem setChklen_blk (s : State) (v : Option Nat) : (s.setChklen v).blk = s.blk := rfl
@[simp] theorem setChklen_blkset (s : State) (v : Option Nat) : (s.setChklen v).blkset = s.blkset := rfl
@[simp] theorem setChklen_retry (s : State) (v : Option Nat) : (s.setChklen v).retry = s.retry := rfl
@[simp] theorem setChklen_tretry (s : State) (v : Option Nat) : (s.setChklen v).tretry = s.tretry := rfl
@[simp] theorem setChklen_status (s : State) (v : Option Nat) : (s.setChklen v).status = s.status := rfl
@[simp] theorem setChklen_psize (s : State) (v : Option Nat) : (s.setChklen v).psize = s.psize := rfl
@[simp] theorem setChklen_idx (s : State) (v : Option Nat) : (s.setChklen v).idx = s.idx := rfl
@[simp] theorem setChklen_rblk (s : State) (v : Option Nat) : (s.setChklen v).rblk = s.rblk := rfl
@[simp] theorem setChklen_rcblk (s : State) (v : Option Nat) : (s.setChklen v).rcblk = s.rcblk := rfl
@[simp] theorem setChklen_chkbuf (s : State) (v : Option Nat) : (s.setChklen v).chkbuf = s.chkbuf := rfl
@[simp] theorem setChklen_cidx (s : State) (v : Option Nat) : (s.setChklen v).cidx = s.cidx := rfl
@[simp] theorem setChklen_chklen (s : State) (v : Option Nat) : (s.setChklen v).chklen = v := rfl
@[simp] theorem setChklen_l (s : State) (v : Option Nat) : (s.setChklen v).l = s.l := rfl
@[simp] theorem setChklen_pbuf (s : State) (v : Option Nat) : (s.setChklen v).pbuf = s.pbuf := rfl
@[simp] theorem setChklen_n (s : State) (v : Option Nat) : (s.setChklen v).n = s.n := rfl
@[simp] theorem setChklen_frame (s : State) (v : Option Nat) : (s.setChklen v).frame = s.frame := rfl
@[simp] theorem setChklen_flen (s : State) (v : Option Nat) : (s.setChklen v).flen = s.flen := rfl
@[simp] theorem setChklen_result (s : State) (v : Option Nat) : (s.setChklen v).result = s.result := rfl
@[simp] theorem setChklen_lastError (s : State) (v : Option Nat) : (s.setChklen v).lastError = s.lastError := rfl
@[simp] theorem setChklen_storageCode (s : State) (v : Option Nat) : (s.setChklen v).storageCode = s.storageCode := rfl
@[simp] theorem setChklen_bytes (s : State) (v : Option Nat) : (s.setChklen v).bytes = s.bytes := rfl
@[simp] theorem setChklen_cfgRetryMax (s : State) (v : Option Nat) : (s.setChklen v).cfgRetryMax = s.cfgRetryMax := rfl
@[simp] theorem setChklen_cfgTxRetryMax (s : State) (v : Option Nat) : (s.setChklen v).cfgTxRetryMax = s.cfgTxRetryMax := rfl
@[simp] theorem setChklen_cfgRxInitMode (s : State) (v : Option Nat) : (s.setChklen v).cfgRxInitMode = s.cfgRxInitMode := rfl
@[simp] theorem setChklen_cfgRxText (s : State) (v : Option Nat) : (s.setChklen v).cfgRxText = s.cfgRxText := rfl
@[simp] theorem setChklen_cfgFirstTagRule (s : State) (v : Option Nat) : (s.setChklen v).cfgFirstTagRule = s.cfgFirstTagRule := rfl
@[simp] theorem setChklen_faulted (s : State) (v : Option Nat) : (s.setChklen v).faulted = s.faulted := rfl
@[simp] theorem setChklen_faultReason (s : State) (v : Option Nat) : (s.setChklen v).faultReason = s.faultReason := rfl
@[simp] theorem setChklen_srcAsked (s : State) (v : Option Nat) : (s.setChklen v).srcAsked = s.srcAsked := rfl
@[simp] theorem setChklen_out (s : State) (v : Option Nat) : (s.setChklen v).out = s.out := rfl
@[simp] theorem setChklen_inbox (s : State) (v : Option Nat) : (s.setChklen v).inbox = s.inbox := rfl
@[simp] theorem setChklen_dp (s : State) (v : Option Nat) : (s.setChklen v).dp = s.dp := rfl
@[simp] theorem setChklen_bytesWidth (s : State) (v : Option Nat) : (s.setChklen v).bytesWidth = s.bytesWidth := rfl
@[simp] theorem setChklen_codes (s : State) (v : Option Nat) : (s.setChklen v).codes = s.codes := rfl

/-! `setL` writes `l` and nothing else. -/

@[simp] theorem setL_busy (s : State) (v : Option Nat) : (s.setL v).busy = s.busy := rfl
@[simp] theorem setL_role (s : State) (v : Option Nat) : (s.setL v).role = s.role := rfl
@[simp] theorem setL_rxst (s : State) (v : Option Nat) : (s.setL v).rxst = s.rxst := rfl
@[simp] theorem setL_txst (s : State) (v : Option Nat) : (s.setL v).txst = s.txst := rfl
@[simp] theorem setL_ph (s : State) (v : Option Nat) : (s.setL v).ph = s.ph := rfl
@[simp] theorem setL_req (s : State) (v : Option Nat) : (s.setL v).req = s.req := rfl
@[simp] theorem setL_mode (s : State) (v : Option Nat) : (s.setL v).mode = s.mode := rfl
@[simp] theorem setL_blk (s : State) (v : Option Nat) : (s.setL v).blk = s.blk := rfl
@[simp] theorem setL_blkset (s : State) (v : Option Nat) : (s.setL v).blkset = s.blkset := rfl
@[simp] theorem setL_retry (s : State) (v : Option Nat) : (s.setL v).retry = s.retry := rfl
@[simp] theorem setL_tretry (s : State) (v : Option Nat) : (s.setL v).tretry = s.tretry := rfl
@[simp] theorem setL_status (s : State) (v : Option Nat) : (s.setL v).status = s.status := rfl
@[simp] theorem setL_psize (s : State) (v : Option Nat) : (s.setL v).psize = s.psize := rfl
@[simp] theorem setL_idx (s : State) (v : Option Nat) : (s.setL v).idx = s.idx := rfl
@[simp] theorem setL_rblk (s : State) (v : Option Nat) : (s.setL v).rblk = s.rblk := rfl
@[simp] theorem setL_rcblk (s : State) (v : Option Nat) : (s.setL v).rcblk = s.rcblk := rfl
@[simp] theorem setL_chkbuf (s : State) (v : Option Nat) : (s.setL v).chkbuf = s.chkbuf := rfl
@[simp] theorem setL_cidx (s : State) (v : Option Nat) : (s.setL v).cidx = s.cidx := rfl
@[simp] theorem setL_chklen (s : State) (v : Option Nat) : (s.setL v).chklen = s.chklen := rfl
@[simp] theorem setL_l (s : State) (v : Option Nat) : (s.setL v).l = v := rfl
@[simp] theorem setL_pbuf (s : State) (v : Option Nat) : (s.setL v).pbuf = s.pbuf := rfl
@[simp] theorem setL_n (s : State) (v : Option Nat) : (s.setL v).n = s.n := rfl
@[simp] theorem setL_frame (s : State) (v : Option Nat) : (s.setL v).frame = s.frame := rfl
@[simp] theorem setL_flen (s : State) (v : Option Nat) : (s.setL v).flen = s.flen := rfl
@[simp] theorem setL_result (s : State) (v : Option Nat) : (s.setL v).result = s.result := rfl
@[simp] theorem setL_lastError (s : State) (v : Option Nat) : (s.setL v).lastError = s.lastError := rfl
@[simp] theorem setL_storageCode (s : State) (v : Option Nat) : (s.setL v).storageCode = s.storageCode := rfl
@[simp] theorem setL_bytes (s : State) (v : Option Nat) : (s.setL v).bytes = s.bytes := rfl
@[simp] theorem setL_cfgRetryMax (s : State) (v : Option Nat) : (s.setL v).cfgRetryMax = s.cfgRetryMax := rfl
@[simp] theorem setL_cfgTxRetryMax (s : State) (v : Option Nat) : (s.setL v).cfgTxRetryMax = s.cfgTxRetryMax := rfl
@[simp] theorem setL_cfgRxInitMode (s : State) (v : Option Nat) : (s.setL v).cfgRxInitMode = s.cfgRxInitMode := rfl
@[simp] theorem setL_cfgRxText (s : State) (v : Option Nat) : (s.setL v).cfgRxText = s.cfgRxText := rfl
@[simp] theorem setL_cfgFirstTagRule (s : State) (v : Option Nat) : (s.setL v).cfgFirstTagRule = s.cfgFirstTagRule := rfl
@[simp] theorem setL_faulted (s : State) (v : Option Nat) : (s.setL v).faulted = s.faulted := rfl
@[simp] theorem setL_faultReason (s : State) (v : Option Nat) : (s.setL v).faultReason = s.faultReason := rfl
@[simp] theorem setL_srcAsked (s : State) (v : Option Nat) : (s.setL v).srcAsked = s.srcAsked := rfl
@[simp] theorem setL_out (s : State) (v : Option Nat) : (s.setL v).out = s.out := rfl
@[simp] theorem setL_inbox (s : State) (v : Option Nat) : (s.setL v).inbox = s.inbox := rfl
@[simp] theorem setL_dp (s : State) (v : Option Nat) : (s.setL v).dp = s.dp := rfl
@[simp] theorem setL_bytesWidth (s : State) (v : Option Nat) : (s.setL v).bytesWidth = s.bytesWidth := rfl
@[simp] theorem setL_codes (s : State) (v : Option Nat) : (s.setL v).codes = s.codes := rfl

/-! `setPbuf` writes `pbuf` and nothing else. -/

@[simp] theorem setPbuf_busy (s : State) (v : List Host.Cell) : (s.setPbuf v).busy = s.busy := rfl
@[simp] theorem setPbuf_role (s : State) (v : List Host.Cell) : (s.setPbuf v).role = s.role := rfl
@[simp] theorem setPbuf_rxst (s : State) (v : List Host.Cell) : (s.setPbuf v).rxst = s.rxst := rfl
@[simp] theorem setPbuf_txst (s : State) (v : List Host.Cell) : (s.setPbuf v).txst = s.txst := rfl
@[simp] theorem setPbuf_ph (s : State) (v : List Host.Cell) : (s.setPbuf v).ph = s.ph := rfl
@[simp] theorem setPbuf_req (s : State) (v : List Host.Cell) : (s.setPbuf v).req = s.req := rfl
@[simp] theorem setPbuf_mode (s : State) (v : List Host.Cell) : (s.setPbuf v).mode = s.mode := rfl
@[simp] theorem setPbuf_blk (s : State) (v : List Host.Cell) : (s.setPbuf v).blk = s.blk := rfl
@[simp] theorem setPbuf_blkset (s : State) (v : List Host.Cell) : (s.setPbuf v).blkset = s.blkset := rfl
@[simp] theorem setPbuf_retry (s : State) (v : List Host.Cell) : (s.setPbuf v).retry = s.retry := rfl
@[simp] theorem setPbuf_tretry (s : State) (v : List Host.Cell) : (s.setPbuf v).tretry = s.tretry := rfl
@[simp] theorem setPbuf_status (s : State) (v : List Host.Cell) : (s.setPbuf v).status = s.status := rfl
@[simp] theorem setPbuf_psize (s : State) (v : List Host.Cell) : (s.setPbuf v).psize = s.psize := rfl
@[simp] theorem setPbuf_idx (s : State) (v : List Host.Cell) : (s.setPbuf v).idx = s.idx := rfl
@[simp] theorem setPbuf_rblk (s : State) (v : List Host.Cell) : (s.setPbuf v).rblk = s.rblk := rfl
@[simp] theorem setPbuf_rcblk (s : State) (v : List Host.Cell) : (s.setPbuf v).rcblk = s.rcblk := rfl
@[simp] theorem setPbuf_chkbuf (s : State) (v : List Host.Cell) : (s.setPbuf v).chkbuf = s.chkbuf := rfl
@[simp] theorem setPbuf_cidx (s : State) (v : List Host.Cell) : (s.setPbuf v).cidx = s.cidx := rfl
@[simp] theorem setPbuf_chklen (s : State) (v : List Host.Cell) : (s.setPbuf v).chklen = s.chklen := rfl
@[simp] theorem setPbuf_l (s : State) (v : List Host.Cell) : (s.setPbuf v).l = s.l := rfl
@[simp] theorem setPbuf_pbuf (s : State) (v : List Host.Cell) : (s.setPbuf v).pbuf = v := rfl
@[simp] theorem setPbuf_n (s : State) (v : List Host.Cell) : (s.setPbuf v).n = s.n := rfl
@[simp] theorem setPbuf_frame (s : State) (v : List Host.Cell) : (s.setPbuf v).frame = s.frame := rfl
@[simp] theorem setPbuf_flen (s : State) (v : List Host.Cell) : (s.setPbuf v).flen = s.flen := rfl
@[simp] theorem setPbuf_result (s : State) (v : List Host.Cell) : (s.setPbuf v).result = s.result := rfl
@[simp] theorem setPbuf_lastError (s : State) (v : List Host.Cell) : (s.setPbuf v).lastError = s.lastError := rfl
@[simp] theorem setPbuf_storageCode (s : State) (v : List Host.Cell) : (s.setPbuf v).storageCode = s.storageCode := rfl
@[simp] theorem setPbuf_bytes (s : State) (v : List Host.Cell) : (s.setPbuf v).bytes = s.bytes := rfl
@[simp] theorem setPbuf_cfgRetryMax (s : State) (v : List Host.Cell) : (s.setPbuf v).cfgRetryMax = s.cfgRetryMax := rfl
@[simp] theorem setPbuf_cfgTxRetryMax (s : State) (v : List Host.Cell) : (s.setPbuf v).cfgTxRetryMax = s.cfgTxRetryMax := rfl
@[simp] theorem setPbuf_cfgRxInitMode (s : State) (v : List Host.Cell) : (s.setPbuf v).cfgRxInitMode = s.cfgRxInitMode := rfl
@[simp] theorem setPbuf_cfgRxText (s : State) (v : List Host.Cell) : (s.setPbuf v).cfgRxText = s.cfgRxText := rfl
@[simp] theorem setPbuf_cfgFirstTagRule (s : State) (v : List Host.Cell) : (s.setPbuf v).cfgFirstTagRule = s.cfgFirstTagRule := rfl
@[simp] theorem setPbuf_faulted (s : State) (v : List Host.Cell) : (s.setPbuf v).faulted = s.faulted := rfl
@[simp] theorem setPbuf_faultReason (s : State) (v : List Host.Cell) : (s.setPbuf v).faultReason = s.faultReason := rfl
@[simp] theorem setPbuf_srcAsked (s : State) (v : List Host.Cell) : (s.setPbuf v).srcAsked = s.srcAsked := rfl
@[simp] theorem setPbuf_out (s : State) (v : List Host.Cell) : (s.setPbuf v).out = s.out := rfl
@[simp] theorem setPbuf_inbox (s : State) (v : List Host.Cell) : (s.setPbuf v).inbox = s.inbox := rfl
@[simp] theorem setPbuf_dp (s : State) (v : List Host.Cell) : (s.setPbuf v).dp = s.dp := rfl
@[simp] theorem setPbuf_bytesWidth (s : State) (v : List Host.Cell) : (s.setPbuf v).bytesWidth = s.bytesWidth := rfl
@[simp] theorem setPbuf_codes (s : State) (v : List Host.Cell) : (s.setPbuf v).codes = s.codes := rfl

/-! `setN` writes `n` and nothing else. -/

@[simp] theorem setN_busy (s : State) (v : Option Nat) : (s.setN v).busy = s.busy := rfl
@[simp] theorem setN_role (s : State) (v : Option Nat) : (s.setN v).role = s.role := rfl
@[simp] theorem setN_rxst (s : State) (v : Option Nat) : (s.setN v).rxst = s.rxst := rfl
@[simp] theorem setN_txst (s : State) (v : Option Nat) : (s.setN v).txst = s.txst := rfl
@[simp] theorem setN_ph (s : State) (v : Option Nat) : (s.setN v).ph = s.ph := rfl
@[simp] theorem setN_req (s : State) (v : Option Nat) : (s.setN v).req = s.req := rfl
@[simp] theorem setN_mode (s : State) (v : Option Nat) : (s.setN v).mode = s.mode := rfl
@[simp] theorem setN_blk (s : State) (v : Option Nat) : (s.setN v).blk = s.blk := rfl
@[simp] theorem setN_blkset (s : State) (v : Option Nat) : (s.setN v).blkset = s.blkset := rfl
@[simp] theorem setN_retry (s : State) (v : Option Nat) : (s.setN v).retry = s.retry := rfl
@[simp] theorem setN_tretry (s : State) (v : Option Nat) : (s.setN v).tretry = s.tretry := rfl
@[simp] theorem setN_status (s : State) (v : Option Nat) : (s.setN v).status = s.status := rfl
@[simp] theorem setN_psize (s : State) (v : Option Nat) : (s.setN v).psize = s.psize := rfl
@[simp] theorem setN_idx (s : State) (v : Option Nat) : (s.setN v).idx = s.idx := rfl
@[simp] theorem setN_rblk (s : State) (v : Option Nat) : (s.setN v).rblk = s.rblk := rfl
@[simp] theorem setN_rcblk (s : State) (v : Option Nat) : (s.setN v).rcblk = s.rcblk := rfl
@[simp] theorem setN_chkbuf (s : State) (v : Option Nat) : (s.setN v).chkbuf = s.chkbuf := rfl
@[simp] theorem setN_cidx (s : State) (v : Option Nat) : (s.setN v).cidx = s.cidx := rfl
@[simp] theorem setN_chklen (s : State) (v : Option Nat) : (s.setN v).chklen = s.chklen := rfl
@[simp] theorem setN_l (s : State) (v : Option Nat) : (s.setN v).l = s.l := rfl
@[simp] theorem setN_pbuf (s : State) (v : Option Nat) : (s.setN v).pbuf = s.pbuf := rfl
@[simp] theorem setN_n (s : State) (v : Option Nat) : (s.setN v).n = v := rfl
@[simp] theorem setN_frame (s : State) (v : Option Nat) : (s.setN v).frame = s.frame := rfl
@[simp] theorem setN_flen (s : State) (v : Option Nat) : (s.setN v).flen = s.flen := rfl
@[simp] theorem setN_result (s : State) (v : Option Nat) : (s.setN v).result = s.result := rfl
@[simp] theorem setN_lastError (s : State) (v : Option Nat) : (s.setN v).lastError = s.lastError := rfl
@[simp] theorem setN_storageCode (s : State) (v : Option Nat) : (s.setN v).storageCode = s.storageCode := rfl
@[simp] theorem setN_bytes (s : State) (v : Option Nat) : (s.setN v).bytes = s.bytes := rfl
@[simp] theorem setN_cfgRetryMax (s : State) (v : Option Nat) : (s.setN v).cfgRetryMax = s.cfgRetryMax := rfl
@[simp] theorem setN_cfgTxRetryMax (s : State) (v : Option Nat) : (s.setN v).cfgTxRetryMax = s.cfgTxRetryMax := rfl
@[simp] theorem setN_cfgRxInitMode (s : State) (v : Option Nat) : (s.setN v).cfgRxInitMode = s.cfgRxInitMode := rfl
@[simp] theorem setN_cfgRxText (s : State) (v : Option Nat) : (s.setN v).cfgRxText = s.cfgRxText := rfl
@[simp] theorem setN_cfgFirstTagRule (s : State) (v : Option Nat) : (s.setN v).cfgFirstTagRule = s.cfgFirstTagRule := rfl
@[simp] theorem setN_faulted (s : State) (v : Option Nat) : (s.setN v).faulted = s.faulted := rfl
@[simp] theorem setN_faultReason (s : State) (v : Option Nat) : (s.setN v).faultReason = s.faultReason := rfl
@[simp] theorem setN_srcAsked (s : State) (v : Option Nat) : (s.setN v).srcAsked = s.srcAsked := rfl
@[simp] theorem setN_out (s : State) (v : Option Nat) : (s.setN v).out = s.out := rfl
@[simp] theorem setN_inbox (s : State) (v : Option Nat) : (s.setN v).inbox = s.inbox := rfl
@[simp] theorem setN_dp (s : State) (v : Option Nat) : (s.setN v).dp = s.dp := rfl
@[simp] theorem setN_bytesWidth (s : State) (v : Option Nat) : (s.setN v).bytesWidth = s.bytesWidth := rfl
@[simp] theorem setN_codes (s : State) (v : Option Nat) : (s.setN v).codes = s.codes := rfl

/-! `setFrame` writes `frame` and nothing else. -/

@[simp] theorem setFrame_busy (s : State) (v : Option Bytes) : (s.setFrame v).busy = s.busy := rfl
@[simp] theorem setFrame_role (s : State) (v : Option Bytes) : (s.setFrame v).role = s.role := rfl
@[simp] theorem setFrame_rxst (s : State) (v : Option Bytes) : (s.setFrame v).rxst = s.rxst := rfl
@[simp] theorem setFrame_txst (s : State) (v : Option Bytes) : (s.setFrame v).txst = s.txst := rfl
@[simp] theorem setFrame_ph (s : State) (v : Option Bytes) : (s.setFrame v).ph = s.ph := rfl
@[simp] theorem setFrame_req (s : State) (v : Option Bytes) : (s.setFrame v).req = s.req := rfl
@[simp] theorem setFrame_mode (s : State) (v : Option Bytes) : (s.setFrame v).mode = s.mode := rfl
@[simp] theorem setFrame_blk (s : State) (v : Option Bytes) : (s.setFrame v).blk = s.blk := rfl
@[simp] theorem setFrame_blkset (s : State) (v : Option Bytes) : (s.setFrame v).blkset = s.blkset := rfl
@[simp] theorem setFrame_retry (s : State) (v : Option Bytes) : (s.setFrame v).retry = s.retry := rfl
@[simp] theorem setFrame_tretry (s : State) (v : Option Bytes) : (s.setFrame v).tretry = s.tretry := rfl
@[simp] theorem setFrame_status (s : State) (v : Option Bytes) : (s.setFrame v).status = s.status := rfl
@[simp] theorem setFrame_psize (s : State) (v : Option Bytes) : (s.setFrame v).psize = s.psize := rfl
@[simp] theorem setFrame_idx (s : State) (v : Option Bytes) : (s.setFrame v).idx = s.idx := rfl
@[simp] theorem setFrame_rblk (s : State) (v : Option Bytes) : (s.setFrame v).rblk = s.rblk := rfl
@[simp] theorem setFrame_rcblk (s : State) (v : Option Bytes) : (s.setFrame v).rcblk = s.rcblk := rfl
@[simp] theorem setFrame_chkbuf (s : State) (v : Option Bytes) : (s.setFrame v).chkbuf = s.chkbuf := rfl
@[simp] theorem setFrame_cidx (s : State) (v : Option Bytes) : (s.setFrame v).cidx = s.cidx := rfl
@[simp] theorem setFrame_chklen (s : State) (v : Option Bytes) : (s.setFrame v).chklen = s.chklen := rfl
@[simp] theorem setFrame_l (s : State) (v : Option Bytes) : (s.setFrame v).l = s.l := rfl
@[simp] theorem setFrame_pbuf (s : State) (v : Option Bytes) : (s.setFrame v).pbuf = s.pbuf := rfl
@[simp] theorem setFrame_n (s : State) (v : Option Bytes) : (s.setFrame v).n = s.n := rfl
@[simp] theorem setFrame_frame (s : State) (v : Option Bytes) : (s.setFrame v).frame = v := rfl
@[simp] theorem setFrame_flen (s : State) (v : Option Bytes) : (s.setFrame v).flen = s.flen := rfl
@[simp] theorem setFrame_result (s : State) (v : Option Bytes) : (s.setFrame v).result = s.result := rfl
@[simp] theorem setFrame_lastError (s : State) (v : Option Bytes) : (s.setFrame v).lastError = s.lastError := rfl
@[simp] theorem setFrame_storageCode (s : State) (v : Option Bytes) : (s.setFrame v).storageCode = s.storageCode := rfl
@[simp] theorem setFrame_bytes (s : State) (v : Option Bytes) : (s.setFrame v).bytes = s.bytes := rfl
@[simp] theorem setFrame_cfgRetryMax (s : State) (v : Option Bytes) : (s.setFrame v).cfgRetryMax = s.cfgRetryMax := rfl
@[simp] theorem setFrame_cfgTxRetryMax (s : State) (v : Option Bytes) : (s.setFrame v).cfgTxRetryMax = s.cfgTxRetryMax := rfl
@[simp] theorem setFrame_cfgRxInitMode (s : State) (v : Option Bytes) : (s.setFrame v).cfgRxInitMode = s.cfgRxInitMode := rfl
@[simp] theorem setFrame_cfgRxText (s : State) (v : Option Bytes) : (s.setFrame v).cfgRxText = s.cfgRxText := rfl
@[simp] theorem setFrame_cfgFirstTagRule (s : State) (v : Option Bytes) : (s.setFrame v).cfgFirstTagRule = s.cfgFirstTagRule := rfl
@[simp] theorem setFrame_faulted (s : State) (v : Option Bytes) : (s.setFrame v).faulted = s.faulted := rfl
@[simp] theorem setFrame_faultReason (s : State) (v : Option Bytes) : (s.setFrame v).faultReason = s.faultReason := rfl
@[simp] theorem setFrame_srcAsked (s : State) (v : Option Bytes) : (s.setFrame v).srcAsked = s.srcAsked := rfl
@[simp] theorem setFrame_out (s : State) (v : Option Bytes) : (s.setFrame v).out = s.out := rfl
@[simp] theorem setFrame_inbox (s : State) (v : Option Bytes) : (s.setFrame v).inbox = s.inbox := rfl
@[simp] theorem setFrame_dp (s : State) (v : Option Bytes) : (s.setFrame v).dp = s.dp := rfl
@[simp] theorem setFrame_bytesWidth (s : State) (v : Option Bytes) : (s.setFrame v).bytesWidth = s.bytesWidth := rfl
@[simp] theorem setFrame_codes (s : State) (v : Option Bytes) : (s.setFrame v).codes = s.codes := rfl

/-! `setFlen` writes `flen` and nothing else. -/

@[simp] theorem setFlen_busy (s : State) (v : Option Nat) : (s.setFlen v).busy = s.busy := rfl
@[simp] theorem setFlen_role (s : State) (v : Option Nat) : (s.setFlen v).role = s.role := rfl
@[simp] theorem setFlen_rxst (s : State) (v : Option Nat) : (s.setFlen v).rxst = s.rxst := rfl
@[simp] theorem setFlen_txst (s : State) (v : Option Nat) : (s.setFlen v).txst = s.txst := rfl
@[simp] theorem setFlen_ph (s : State) (v : Option Nat) : (s.setFlen v).ph = s.ph := rfl
@[simp] theorem setFlen_req (s : State) (v : Option Nat) : (s.setFlen v).req = s.req := rfl
@[simp] theorem setFlen_mode (s : State) (v : Option Nat) : (s.setFlen v).mode = s.mode := rfl
@[simp] theorem setFlen_blk (s : State) (v : Option Nat) : (s.setFlen v).blk = s.blk := rfl
@[simp] theorem setFlen_blkset (s : State) (v : Option Nat) : (s.setFlen v).blkset = s.blkset := rfl
@[simp] theorem setFlen_retry (s : State) (v : Option Nat) : (s.setFlen v).retry = s.retry := rfl
@[simp] theorem setFlen_tretry (s : State) (v : Option Nat) : (s.setFlen v).tretry = s.tretry := rfl
@[simp] theorem setFlen_status (s : State) (v : Option Nat) : (s.setFlen v).status = s.status := rfl
@[simp] theorem setFlen_psize (s : State) (v : Option Nat) : (s.setFlen v).psize = s.psize := rfl
@[simp] theorem setFlen_idx (s : State) (v : Option Nat) : (s.setFlen v).idx = s.idx := rfl
@[simp] theorem setFlen_rblk (s : State) (v : Option Nat) : (s.setFlen v).rblk = s.rblk := rfl
@[simp] theorem setFlen_rcblk (s : State) (v : Option Nat) : (s.setFlen v).rcblk = s.rcblk := rfl
@[simp] theorem setFlen_chkbuf (s : State) (v : Option Nat) : (s.setFlen v).chkbuf = s.chkbuf := rfl
@[simp] theorem setFlen_cidx (s : State) (v : Option Nat) : (s.setFlen v).cidx = s.cidx := rfl
@[simp] theorem setFlen_chklen (s : State) (v : Option Nat) : (s.setFlen v).chklen = s.chklen := rfl
@[simp] theorem setFlen_l (s : State) (v : Option Nat) : (s.setFlen v).l = s.l := rfl
@[simp] theorem setFlen_pbuf (s : State) (v : Option Nat) : (s.setFlen v).pbuf = s.pbuf := rfl
@[simp] theorem setFlen_n (s : State) (v : Option Nat) : (s.setFlen v).n = s.n := rfl
@[simp] theorem setFlen_frame (s : State) (v : Option Nat) : (s.setFlen v).frame = s.frame := rfl
@[simp] theorem setFlen_flen (s : State) (v : Option Nat) : (s.setFlen v).flen = v := rfl
@[simp] theorem setFlen_result (s : State) (v : Option Nat) : (s.setFlen v).result = s.result := rfl
@[simp] theorem setFlen_lastError (s : State) (v : Option Nat) : (s.setFlen v).lastError = s.lastError := rfl
@[simp] theorem setFlen_storageCode (s : State) (v : Option Nat) : (s.setFlen v).storageCode = s.storageCode := rfl
@[simp] theorem setFlen_bytes (s : State) (v : Option Nat) : (s.setFlen v).bytes = s.bytes := rfl
@[simp] theorem setFlen_cfgRetryMax (s : State) (v : Option Nat) : (s.setFlen v).cfgRetryMax = s.cfgRetryMax := rfl
@[simp] theorem setFlen_cfgTxRetryMax (s : State) (v : Option Nat) : (s.setFlen v).cfgTxRetryMax = s.cfgTxRetryMax := rfl
@[simp] theorem setFlen_cfgRxInitMode (s : State) (v : Option Nat) : (s.setFlen v).cfgRxInitMode = s.cfgRxInitMode := rfl
@[simp] theorem setFlen_cfgRxText (s : State) (v : Option Nat) : (s.setFlen v).cfgRxText = s.cfgRxText := rfl
@[simp] theorem setFlen_cfgFirstTagRule (s : State) (v : Option Nat) : (s.setFlen v).cfgFirstTagRule = s.cfgFirstTagRule := rfl
@[simp] theorem setFlen_faulted (s : State) (v : Option Nat) : (s.setFlen v).faulted = s.faulted := rfl
@[simp] theorem setFlen_faultReason (s : State) (v : Option Nat) : (s.setFlen v).faultReason = s.faultReason := rfl
@[simp] theorem setFlen_srcAsked (s : State) (v : Option Nat) : (s.setFlen v).srcAsked = s.srcAsked := rfl
@[simp] theorem setFlen_out (s : State) (v : Option Nat) : (s.setFlen v).out = s.out := rfl
@[simp] theorem setFlen_inbox (s : State) (v : Option Nat) : (s.setFlen v).inbox = s.inbox := rfl
@[simp] theorem setFlen_dp (s : State) (v : Option Nat) : (s.setFlen v).dp = s.dp := rfl
@[simp] theorem setFlen_bytesWidth (s : State) (v : Option Nat) : (s.setFlen v).bytesWidth = s.bytesWidth := rfl
@[simp] theorem setFlen_codes (s : State) (v : Option Nat) : (s.setFlen v).codes = s.codes := rfl

/-! `setResult` writes `result` and nothing else. -/

@[simp] theorem setResult_busy (s : State) (v : Option Result) : (s.setResult v).busy = s.busy := rfl
@[simp] theorem setResult_role (s : State) (v : Option Result) : (s.setResult v).role = s.role := rfl
@[simp] theorem setResult_rxst (s : State) (v : Option Result) : (s.setResult v).rxst = s.rxst := rfl
@[simp] theorem setResult_txst (s : State) (v : Option Result) : (s.setResult v).txst = s.txst := rfl
@[simp] theorem setResult_ph (s : State) (v : Option Result) : (s.setResult v).ph = s.ph := rfl
@[simp] theorem setResult_req (s : State) (v : Option Result) : (s.setResult v).req = s.req := rfl
@[simp] theorem setResult_mode (s : State) (v : Option Result) : (s.setResult v).mode = s.mode := rfl
@[simp] theorem setResult_blk (s : State) (v : Option Result) : (s.setResult v).blk = s.blk := rfl
@[simp] theorem setResult_blkset (s : State) (v : Option Result) : (s.setResult v).blkset = s.blkset := rfl
@[simp] theorem setResult_retry (s : State) (v : Option Result) : (s.setResult v).retry = s.retry := rfl
@[simp] theorem setResult_tretry (s : State) (v : Option Result) : (s.setResult v).tretry = s.tretry := rfl
@[simp] theorem setResult_status (s : State) (v : Option Result) : (s.setResult v).status = s.status := rfl
@[simp] theorem setResult_psize (s : State) (v : Option Result) : (s.setResult v).psize = s.psize := rfl
@[simp] theorem setResult_idx (s : State) (v : Option Result) : (s.setResult v).idx = s.idx := rfl
@[simp] theorem setResult_rblk (s : State) (v : Option Result) : (s.setResult v).rblk = s.rblk := rfl
@[simp] theorem setResult_rcblk (s : State) (v : Option Result) : (s.setResult v).rcblk = s.rcblk := rfl
@[simp] theorem setResult_chkbuf (s : State) (v : Option Result) : (s.setResult v).chkbuf = s.chkbuf := rfl
@[simp] theorem setResult_cidx (s : State) (v : Option Result) : (s.setResult v).cidx = s.cidx := rfl
@[simp] theorem setResult_chklen (s : State) (v : Option Result) : (s.setResult v).chklen = s.chklen := rfl
@[simp] theorem setResult_l (s : State) (v : Option Result) : (s.setResult v).l = s.l := rfl
@[simp] theorem setResult_pbuf (s : State) (v : Option Result) : (s.setResult v).pbuf = s.pbuf := rfl
@[simp] theorem setResult_n (s : State) (v : Option Result) : (s.setResult v).n = s.n := rfl
@[simp] theorem setResult_frame (s : State) (v : Option Result) : (s.setResult v).frame = s.frame := rfl
@[simp] theorem setResult_flen (s : State) (v : Option Result) : (s.setResult v).flen = s.flen := rfl
@[simp] theorem setResult_result (s : State) (v : Option Result) : (s.setResult v).result = v := rfl
@[simp] theorem setResult_lastError (s : State) (v : Option Result) : (s.setResult v).lastError = s.lastError := rfl
@[simp] theorem setResult_storageCode (s : State) (v : Option Result) : (s.setResult v).storageCode = s.storageCode := rfl
@[simp] theorem setResult_bytes (s : State) (v : Option Result) : (s.setResult v).bytes = s.bytes := rfl
@[simp] theorem setResult_cfgRetryMax (s : State) (v : Option Result) : (s.setResult v).cfgRetryMax = s.cfgRetryMax := rfl
@[simp] theorem setResult_cfgTxRetryMax (s : State) (v : Option Result) : (s.setResult v).cfgTxRetryMax = s.cfgTxRetryMax := rfl
@[simp] theorem setResult_cfgRxInitMode (s : State) (v : Option Result) : (s.setResult v).cfgRxInitMode = s.cfgRxInitMode := rfl
@[simp] theorem setResult_cfgRxText (s : State) (v : Option Result) : (s.setResult v).cfgRxText = s.cfgRxText := rfl
@[simp] theorem setResult_cfgFirstTagRule (s : State) (v : Option Result) : (s.setResult v).cfgFirstTagRule = s.cfgFirstTagRule := rfl
@[simp] theorem setResult_faulted (s : State) (v : Option Result) : (s.setResult v).faulted = s.faulted := rfl
@[simp] theorem setResult_faultReason (s : State) (v : Option Result) : (s.setResult v).faultReason = s.faultReason := rfl
@[simp] theorem setResult_srcAsked (s : State) (v : Option Result) : (s.setResult v).srcAsked = s.srcAsked := rfl
@[simp] theorem setResult_out (s : State) (v : Option Result) : (s.setResult v).out = s.out := rfl
@[simp] theorem setResult_inbox (s : State) (v : Option Result) : (s.setResult v).inbox = s.inbox := rfl
@[simp] theorem setResult_dp (s : State) (v : Option Result) : (s.setResult v).dp = s.dp := rfl
@[simp] theorem setResult_bytesWidth (s : State) (v : Option Result) : (s.setResult v).bytesWidth = s.bytesWidth := rfl
@[simp] theorem setResult_codes (s : State) (v : Option Result) : (s.setResult v).codes = s.codes := rfl

/-! `setLastError` writes `lastError` and nothing else. -/

@[simp] theorem setLastError_busy (s : State) (v : Option Result) : (s.setLastError v).busy = s.busy := rfl
@[simp] theorem setLastError_role (s : State) (v : Option Result) : (s.setLastError v).role = s.role := rfl
@[simp] theorem setLastError_rxst (s : State) (v : Option Result) : (s.setLastError v).rxst = s.rxst := rfl
@[simp] theorem setLastError_txst (s : State) (v : Option Result) : (s.setLastError v).txst = s.txst := rfl
@[simp] theorem setLastError_ph (s : State) (v : Option Result) : (s.setLastError v).ph = s.ph := rfl
@[simp] theorem setLastError_req (s : State) (v : Option Result) : (s.setLastError v).req = s.req := rfl
@[simp] theorem setLastError_mode (s : State) (v : Option Result) : (s.setLastError v).mode = s.mode := rfl
@[simp] theorem setLastError_blk (s : State) (v : Option Result) : (s.setLastError v).blk = s.blk := rfl
@[simp] theorem setLastError_blkset (s : State) (v : Option Result) : (s.setLastError v).blkset = s.blkset := rfl
@[simp] theorem setLastError_retry (s : State) (v : Option Result) : (s.setLastError v).retry = s.retry := rfl
@[simp] theorem setLastError_tretry (s : State) (v : Option Result) : (s.setLastError v).tretry = s.tretry := rfl
@[simp] theorem setLastError_status (s : State) (v : Option Result) : (s.setLastError v).status = s.status := rfl
@[simp] theorem setLastError_psize (s : State) (v : Option Result) : (s.setLastError v).psize = s.psize := rfl
@[simp] theorem setLastError_idx (s : State) (v : Option Result) : (s.setLastError v).idx = s.idx := rfl
@[simp] theorem setLastError_rblk (s : State) (v : Option Result) : (s.setLastError v).rblk = s.rblk := rfl
@[simp] theorem setLastError_rcblk (s : State) (v : Option Result) : (s.setLastError v).rcblk = s.rcblk := rfl
@[simp] theorem setLastError_chkbuf (s : State) (v : Option Result) : (s.setLastError v).chkbuf = s.chkbuf := rfl
@[simp] theorem setLastError_cidx (s : State) (v : Option Result) : (s.setLastError v).cidx = s.cidx := rfl
@[simp] theorem setLastError_chklen (s : State) (v : Option Result) : (s.setLastError v).chklen = s.chklen := rfl
@[simp] theorem setLastError_l (s : State) (v : Option Result) : (s.setLastError v).l = s.l := rfl
@[simp] theorem setLastError_pbuf (s : State) (v : Option Result) : (s.setLastError v).pbuf = s.pbuf := rfl
@[simp] theorem setLastError_n (s : State) (v : Option Result) : (s.setLastError v).n = s.n := rfl
@[simp] theorem setLastError_frame (s : State) (v : Option Result) : (s.setLastError v).frame = s.frame := rfl
@[simp] theorem setLastError_flen (s : State) (v : Option Result) : (s.setLastError v).flen = s.flen := rfl
@[simp] theorem setLastError_result (s : State) (v : Option Result) : (s.setLastError v).result = s.result := rfl
@[simp] theorem setLastError_lastError (s : State) (v : Option Result) : (s.setLastError v).lastError = v := rfl
@[simp] theorem setLastError_storageCode (s : State) (v : Option Result) : (s.setLastError v).storageCode = s.storageCode := rfl
@[simp] theorem setLastError_bytes (s : State) (v : Option Result) : (s.setLastError v).bytes = s.bytes := rfl
@[simp] theorem setLastError_cfgRetryMax (s : State) (v : Option Result) : (s.setLastError v).cfgRetryMax = s.cfgRetryMax := rfl
@[simp] theorem setLastError_cfgTxRetryMax (s : State) (v : Option Result) : (s.setLastError v).cfgTxRetryMax = s.cfgTxRetryMax := rfl
@[simp] theorem setLastError_cfgRxInitMode (s : State) (v : Option Result) : (s.setLastError v).cfgRxInitMode = s.cfgRxInitMode := rfl
@[simp] theorem setLastError_cfgRxText (s : State) (v : Option Result) : (s.setLastError v).cfgRxText = s.cfgRxText := rfl
@[simp] theorem setLastError_cfgFirstTagRule (s : State) (v : Option Result) : (s.setLastError v).cfgFirstTagRule = s.cfgFirstTagRule := rfl
@[simp] theorem setLastError_faulted (s : State) (v : Option Result) : (s.setLastError v).faulted = s.faulted := rfl
@[simp] theorem setLastError_faultReason (s : State) (v : Option Result) : (s.setLastError v).faultReason = s.faultReason := rfl
@[simp] theorem setLastError_srcAsked (s : State) (v : Option Result) : (s.setLastError v).srcAsked = s.srcAsked := rfl
@[simp] theorem setLastError_out (s : State) (v : Option Result) : (s.setLastError v).out = s.out := rfl
@[simp] theorem setLastError_inbox (s : State) (v : Option Result) : (s.setLastError v).inbox = s.inbox := rfl
@[simp] theorem setLastError_dp (s : State) (v : Option Result) : (s.setLastError v).dp = s.dp := rfl
@[simp] theorem setLastError_bytesWidth (s : State) (v : Option Result) : (s.setLastError v).bytesWidth = s.bytesWidth := rfl
@[simp] theorem setLastError_codes (s : State) (v : Option Result) : (s.setLastError v).codes = s.codes := rfl

/-! `setStorageCode` writes `storageCode` and nothing else. -/

@[simp] theorem setStorageCode_busy (s : State) (v : Option StorageCode) : (s.setStorageCode v).busy = s.busy := rfl
@[simp] theorem setStorageCode_role (s : State) (v : Option StorageCode) : (s.setStorageCode v).role = s.role := rfl
@[simp] theorem setStorageCode_rxst (s : State) (v : Option StorageCode) : (s.setStorageCode v).rxst = s.rxst := rfl
@[simp] theorem setStorageCode_txst (s : State) (v : Option StorageCode) : (s.setStorageCode v).txst = s.txst := rfl
@[simp] theorem setStorageCode_ph (s : State) (v : Option StorageCode) : (s.setStorageCode v).ph = s.ph := rfl
@[simp] theorem setStorageCode_req (s : State) (v : Option StorageCode) : (s.setStorageCode v).req = s.req := rfl
@[simp] theorem setStorageCode_mode (s : State) (v : Option StorageCode) : (s.setStorageCode v).mode = s.mode := rfl
@[simp] theorem setStorageCode_blk (s : State) (v : Option StorageCode) : (s.setStorageCode v).blk = s.blk := rfl
@[simp] theorem setStorageCode_blkset (s : State) (v : Option StorageCode) : (s.setStorageCode v).blkset = s.blkset := rfl
@[simp] theorem setStorageCode_retry (s : State) (v : Option StorageCode) : (s.setStorageCode v).retry = s.retry := rfl
@[simp] theorem setStorageCode_tretry (s : State) (v : Option StorageCode) : (s.setStorageCode v).tretry = s.tretry := rfl
@[simp] theorem setStorageCode_status (s : State) (v : Option StorageCode) : (s.setStorageCode v).status = s.status := rfl
@[simp] theorem setStorageCode_psize (s : State) (v : Option StorageCode) : (s.setStorageCode v).psize = s.psize := rfl
@[simp] theorem setStorageCode_idx (s : State) (v : Option StorageCode) : (s.setStorageCode v).idx = s.idx := rfl
@[simp] theorem setStorageCode_rblk (s : State) (v : Option StorageCode) : (s.setStorageCode v).rblk = s.rblk := rfl
@[simp] theorem setStorageCode_rcblk (s : State) (v : Option StorageCode) : (s.setStorageCode v).rcblk = s.rcblk := rfl
@[simp] theorem setStorageCode_chkbuf (s : State) (v : Option StorageCode) : (s.setStorageCode v).chkbuf = s.chkbuf := rfl
@[simp] theorem setStorageCode_cidx (s : State) (v : Option StorageCode) : (s.setStorageCode v).cidx = s.cidx := rfl
@[simp] theorem setStorageCode_chklen (s : State) (v : Option StorageCode) : (s.setStorageCode v).chklen = s.chklen := rfl
@[simp] theorem setStorageCode_l (s : State) (v : Option StorageCode) : (s.setStorageCode v).l = s.l := rfl
@[simp] theorem setStorageCode_pbuf (s : State) (v : Option StorageCode) : (s.setStorageCode v).pbuf = s.pbuf := rfl
@[simp] theorem setStorageCode_n (s : State) (v : Option StorageCode) : (s.setStorageCode v).n = s.n := rfl
@[simp] theorem setStorageCode_frame (s : State) (v : Option StorageCode) : (s.setStorageCode v).frame = s.frame := rfl
@[simp] theorem setStorageCode_flen (s : State) (v : Option StorageCode) : (s.setStorageCode v).flen = s.flen := rfl
@[simp] theorem setStorageCode_result (s : State) (v : Option StorageCode) : (s.setStorageCode v).result = s.result := rfl
@[simp] theorem setStorageCode_lastError (s : State) (v : Option StorageCode) : (s.setStorageCode v).lastError = s.lastError := rfl
@[simp] theorem setStorageCode_storageCode (s : State) (v : Option StorageCode) : (s.setStorageCode v).storageCode = v := rfl
@[simp] theorem setStorageCode_bytes (s : State) (v : Option StorageCode) : (s.setStorageCode v).bytes = s.bytes := rfl
@[simp] theorem setStorageCode_cfgRetryMax (s : State) (v : Option StorageCode) : (s.setStorageCode v).cfgRetryMax = s.cfgRetryMax := rfl
@[simp] theorem setStorageCode_cfgTxRetryMax (s : State) (v : Option StorageCode) : (s.setStorageCode v).cfgTxRetryMax = s.cfgTxRetryMax := rfl
@[simp] theorem setStorageCode_cfgRxInitMode (s : State) (v : Option StorageCode) : (s.setStorageCode v).cfgRxInitMode = s.cfgRxInitMode := rfl
@[simp] theorem setStorageCode_cfgRxText (s : State) (v : Option StorageCode) : (s.setStorageCode v).cfgRxText = s.cfgRxText := rfl
@[simp] theorem setStorageCode_cfgFirstTagRule (s : State) (v : Option StorageCode) : (s.setStorageCode v).cfgFirstTagRule = s.cfgFirstTagRule := rfl
@[simp] theorem setStorageCode_faulted (s : State) (v : Option StorageCode) : (s.setStorageCode v).faulted = s.faulted := rfl
@[simp] theorem setStorageCode_faultReason (s : State) (v : Option StorageCode) : (s.setStorageCode v).faultReason = s.faultReason := rfl
@[simp] theorem setStorageCode_srcAsked (s : State) (v : Option StorageCode) : (s.setStorageCode v).srcAsked = s.srcAsked := rfl
@[simp] theorem setStorageCode_out (s : State) (v : Option StorageCode) : (s.setStorageCode v).out = s.out := rfl
@[simp] theorem setStorageCode_inbox (s : State) (v : Option StorageCode) : (s.setStorageCode v).inbox = s.inbox := rfl
@[simp] theorem setStorageCode_dp (s : State) (v : Option StorageCode) : (s.setStorageCode v).dp = s.dp := rfl
@[simp] theorem setStorageCode_bytesWidth (s : State) (v : Option StorageCode) : (s.setStorageCode v).bytesWidth = s.bytesWidth := rfl
@[simp] theorem setStorageCode_codes (s : State) (v : Option StorageCode) : (s.setStorageCode v).codes = s.codes := rfl

/-! `setBytes` writes `bytes` and nothing else. -/

@[simp] theorem setBytes_busy (s : State) (v : Nat) : (s.setBytes v).busy = s.busy := rfl
@[simp] theorem setBytes_role (s : State) (v : Nat) : (s.setBytes v).role = s.role := rfl
@[simp] theorem setBytes_rxst (s : State) (v : Nat) : (s.setBytes v).rxst = s.rxst := rfl
@[simp] theorem setBytes_txst (s : State) (v : Nat) : (s.setBytes v).txst = s.txst := rfl
@[simp] theorem setBytes_ph (s : State) (v : Nat) : (s.setBytes v).ph = s.ph := rfl
@[simp] theorem setBytes_req (s : State) (v : Nat) : (s.setBytes v).req = s.req := rfl
@[simp] theorem setBytes_mode (s : State) (v : Nat) : (s.setBytes v).mode = s.mode := rfl
@[simp] theorem setBytes_blk (s : State) (v : Nat) : (s.setBytes v).blk = s.blk := rfl
@[simp] theorem setBytes_blkset (s : State) (v : Nat) : (s.setBytes v).blkset = s.blkset := rfl
@[simp] theorem setBytes_retry (s : State) (v : Nat) : (s.setBytes v).retry = s.retry := rfl
@[simp] theorem setBytes_tretry (s : State) (v : Nat) : (s.setBytes v).tretry = s.tretry := rfl
@[simp] theorem setBytes_status (s : State) (v : Nat) : (s.setBytes v).status = s.status := rfl
@[simp] theorem setBytes_psize (s : State) (v : Nat) : (s.setBytes v).psize = s.psize := rfl
@[simp] theorem setBytes_idx (s : State) (v : Nat) : (s.setBytes v).idx = s.idx := rfl
@[simp] theorem setBytes_rblk (s : State) (v : Nat) : (s.setBytes v).rblk = s.rblk := rfl
@[simp] theorem setBytes_rcblk (s : State) (v : Nat) : (s.setBytes v).rcblk = s.rcblk := rfl
@[simp] theorem setBytes_chkbuf (s : State) (v : Nat) : (s.setBytes v).chkbuf = s.chkbuf := rfl
@[simp] theorem setBytes_cidx (s : State) (v : Nat) : (s.setBytes v).cidx = s.cidx := rfl
@[simp] theorem setBytes_chklen (s : State) (v : Nat) : (s.setBytes v).chklen = s.chklen := rfl
@[simp] theorem setBytes_l (s : State) (v : Nat) : (s.setBytes v).l = s.l := rfl
@[simp] theorem setBytes_pbuf (s : State) (v : Nat) : (s.setBytes v).pbuf = s.pbuf := rfl
@[simp] theorem setBytes_n (s : State) (v : Nat) : (s.setBytes v).n = s.n := rfl
@[simp] theorem setBytes_frame (s : State) (v : Nat) : (s.setBytes v).frame = s.frame := rfl
@[simp] theorem setBytes_flen (s : State) (v : Nat) : (s.setBytes v).flen = s.flen := rfl
@[simp] theorem setBytes_result (s : State) (v : Nat) : (s.setBytes v).result = s.result := rfl
@[simp] theorem setBytes_lastError (s : State) (v : Nat) : (s.setBytes v).lastError = s.lastError := rfl
@[simp] theorem setBytes_storageCode (s : State) (v : Nat) : (s.setBytes v).storageCode = s.storageCode := rfl
@[simp] theorem setBytes_bytes (s : State) (v : Nat) : (s.setBytes v).bytes = v := rfl
@[simp] theorem setBytes_cfgRetryMax (s : State) (v : Nat) : (s.setBytes v).cfgRetryMax = s.cfgRetryMax := rfl
@[simp] theorem setBytes_cfgTxRetryMax (s : State) (v : Nat) : (s.setBytes v).cfgTxRetryMax = s.cfgTxRetryMax := rfl
@[simp] theorem setBytes_cfgRxInitMode (s : State) (v : Nat) : (s.setBytes v).cfgRxInitMode = s.cfgRxInitMode := rfl
@[simp] theorem setBytes_cfgRxText (s : State) (v : Nat) : (s.setBytes v).cfgRxText = s.cfgRxText := rfl
@[simp] theorem setBytes_cfgFirstTagRule (s : State) (v : Nat) : (s.setBytes v).cfgFirstTagRule = s.cfgFirstTagRule := rfl
@[simp] theorem setBytes_faulted (s : State) (v : Nat) : (s.setBytes v).faulted = s.faulted := rfl
@[simp] theorem setBytes_faultReason (s : State) (v : Nat) : (s.setBytes v).faultReason = s.faultReason := rfl
@[simp] theorem setBytes_srcAsked (s : State) (v : Nat) : (s.setBytes v).srcAsked = s.srcAsked := rfl
@[simp] theorem setBytes_out (s : State) (v : Nat) : (s.setBytes v).out = s.out := rfl
@[simp] theorem setBytes_inbox (s : State) (v : Nat) : (s.setBytes v).inbox = s.inbox := rfl
@[simp] theorem setBytes_dp (s : State) (v : Nat) : (s.setBytes v).dp = s.dp := rfl
@[simp] theorem setBytes_bytesWidth (s : State) (v : Nat) : (s.setBytes v).bytesWidth = s.bytesWidth := rfl
@[simp] theorem setBytes_codes (s : State) (v : Nat) : (s.setBytes v).codes = s.codes := rfl

/-! `setCfgRetryMax` writes `cfgRetryMax` and nothing else. -/

@[simp] theorem setCfgRetryMax_busy (s : State) (v : Option Nat) : (s.setCfgRetryMax v).busy = s.busy := rfl
@[simp] theorem setCfgRetryMax_role (s : State) (v : Option Nat) : (s.setCfgRetryMax v).role = s.role := rfl
@[simp] theorem setCfgRetryMax_rxst (s : State) (v : Option Nat) : (s.setCfgRetryMax v).rxst = s.rxst := rfl
@[simp] theorem setCfgRetryMax_txst (s : State) (v : Option Nat) : (s.setCfgRetryMax v).txst = s.txst := rfl
@[simp] theorem setCfgRetryMax_ph (s : State) (v : Option Nat) : (s.setCfgRetryMax v).ph = s.ph := rfl
@[simp] theorem setCfgRetryMax_req (s : State) (v : Option Nat) : (s.setCfgRetryMax v).req = s.req := rfl
@[simp] theorem setCfgRetryMax_mode (s : State) (v : Option Nat) : (s.setCfgRetryMax v).mode = s.mode := rfl
@[simp] theorem setCfgRetryMax_blk (s : State) (v : Option Nat) : (s.setCfgRetryMax v).blk = s.blk := rfl
@[simp] theorem setCfgRetryMax_blkset (s : State) (v : Option Nat) : (s.setCfgRetryMax v).blkset = s.blkset := rfl
@[simp] theorem setCfgRetryMax_retry (s : State) (v : Option Nat) : (s.setCfgRetryMax v).retry = s.retry := rfl
@[simp] theorem setCfgRetryMax_tretry (s : State) (v : Option Nat) : (s.setCfgRetryMax v).tretry = s.tretry := rfl
@[simp] theorem setCfgRetryMax_status (s : State) (v : Option Nat) : (s.setCfgRetryMax v).status = s.status := rfl
@[simp] theorem setCfgRetryMax_psize (s : State) (v : Option Nat) : (s.setCfgRetryMax v).psize = s.psize := rfl
@[simp] theorem setCfgRetryMax_idx (s : State) (v : Option Nat) : (s.setCfgRetryMax v).idx = s.idx := rfl
@[simp] theorem setCfgRetryMax_rblk (s : State) (v : Option Nat) : (s.setCfgRetryMax v).rblk = s.rblk := rfl
@[simp] theorem setCfgRetryMax_rcblk (s : State) (v : Option Nat) : (s.setCfgRetryMax v).rcblk = s.rcblk := rfl
@[simp] theorem setCfgRetryMax_chkbuf (s : State) (v : Option Nat) : (s.setCfgRetryMax v).chkbuf = s.chkbuf := rfl
@[simp] theorem setCfgRetryMax_cidx (s : State) (v : Option Nat) : (s.setCfgRetryMax v).cidx = s.cidx := rfl
@[simp] theorem setCfgRetryMax_chklen (s : State) (v : Option Nat) : (s.setCfgRetryMax v).chklen = s.chklen := rfl
@[simp] theorem setCfgRetryMax_l (s : State) (v : Option Nat) : (s.setCfgRetryMax v).l = s.l := rfl
@[simp] theorem setCfgRetryMax_pbuf (s : State) (v : Option Nat) : (s.setCfgRetryMax v).pbuf = s.pbuf := rfl
@[simp] theorem setCfgRetryMax_n (s : State) (v : Option Nat) : (s.setCfgRetryMax v).n = s.n := rfl
@[simp] theorem setCfgRetryMax_frame (s : State) (v : Option Nat) : (s.setCfgRetryMax v).frame = s.frame := rfl
@[simp] theorem setCfgRetryMax_flen (s : State) (v : Option Nat) : (s.setCfgRetryMax v).flen = s.flen := rfl
@[simp] theorem setCfgRetryMax_result (s : State) (v : Option Nat) : (s.setCfgRetryMax v).result = s.result := rfl
@[simp] theorem setCfgRetryMax_lastError (s : State) (v : Option Nat) : (s.setCfgRetryMax v).lastError = s.lastError := rfl
@[simp] theorem setCfgRetryMax_storageCode (s : State) (v : Option Nat) : (s.setCfgRetryMax v).storageCode = s.storageCode := rfl
@[simp] theorem setCfgRetryMax_bytes (s : State) (v : Option Nat) : (s.setCfgRetryMax v).bytes = s.bytes := rfl
@[simp] theorem setCfgRetryMax_cfgRetryMax (s : State) (v : Option Nat) : (s.setCfgRetryMax v).cfgRetryMax = v := rfl
@[simp] theorem setCfgRetryMax_cfgTxRetryMax (s : State) (v : Option Nat) : (s.setCfgRetryMax v).cfgTxRetryMax = s.cfgTxRetryMax := rfl
@[simp] theorem setCfgRetryMax_cfgRxInitMode (s : State) (v : Option Nat) : (s.setCfgRetryMax v).cfgRxInitMode = s.cfgRxInitMode := rfl
@[simp] theorem setCfgRetryMax_cfgRxText (s : State) (v : Option Nat) : (s.setCfgRetryMax v).cfgRxText = s.cfgRxText := rfl
@[simp] theorem setCfgRetryMax_cfgFirstTagRule (s : State) (v : Option Nat) : (s.setCfgRetryMax v).cfgFirstTagRule = s.cfgFirstTagRule := rfl
@[simp] theorem setCfgRetryMax_faulted (s : State) (v : Option Nat) : (s.setCfgRetryMax v).faulted = s.faulted := rfl
@[simp] theorem setCfgRetryMax_faultReason (s : State) (v : Option Nat) : (s.setCfgRetryMax v).faultReason = s.faultReason := rfl
@[simp] theorem setCfgRetryMax_srcAsked (s : State) (v : Option Nat) : (s.setCfgRetryMax v).srcAsked = s.srcAsked := rfl
@[simp] theorem setCfgRetryMax_out (s : State) (v : Option Nat) : (s.setCfgRetryMax v).out = s.out := rfl
@[simp] theorem setCfgRetryMax_inbox (s : State) (v : Option Nat) : (s.setCfgRetryMax v).inbox = s.inbox := rfl
@[simp] theorem setCfgRetryMax_dp (s : State) (v : Option Nat) : (s.setCfgRetryMax v).dp = s.dp := rfl
@[simp] theorem setCfgRetryMax_bytesWidth (s : State) (v : Option Nat) : (s.setCfgRetryMax v).bytesWidth = s.bytesWidth := rfl
@[simp] theorem setCfgRetryMax_codes (s : State) (v : Option Nat) : (s.setCfgRetryMax v).codes = s.codes := rfl

/-! `setCfgTxRetryMax` writes `cfgTxRetryMax` and nothing else. -/

@[simp] theorem setCfgTxRetryMax_busy (s : State) (v : Option Nat) : (s.setCfgTxRetryMax v).busy = s.busy := rfl
@[simp] theorem setCfgTxRetryMax_role (s : State) (v : Option Nat) : (s.setCfgTxRetryMax v).role = s.role := rfl
@[simp] theorem setCfgTxRetryMax_rxst (s : State) (v : Option Nat) : (s.setCfgTxRetryMax v).rxst = s.rxst := rfl
@[simp] theorem setCfgTxRetryMax_txst (s : State) (v : Option Nat) : (s.setCfgTxRetryMax v).txst = s.txst := rfl
@[simp] theorem setCfgTxRetryMax_ph (s : State) (v : Option Nat) : (s.setCfgTxRetryMax v).ph = s.ph := rfl
@[simp] theorem setCfgTxRetryMax_req (s : State) (v : Option Nat) : (s.setCfgTxRetryMax v).req = s.req := rfl
@[simp] theorem setCfgTxRetryMax_mode (s : State) (v : Option Nat) : (s.setCfgTxRetryMax v).mode = s.mode := rfl
@[simp] theorem setCfgTxRetryMax_blk (s : State) (v : Option Nat) : (s.setCfgTxRetryMax v).blk = s.blk := rfl
@[simp] theorem setCfgTxRetryMax_blkset (s : State) (v : Option Nat) : (s.setCfgTxRetryMax v).blkset = s.blkset := rfl
@[simp] theorem setCfgTxRetryMax_retry (s : State) (v : Option Nat) : (s.setCfgTxRetryMax v).retry = s.retry := rfl
@[simp] theorem setCfgTxRetryMax_tretry (s : State) (v : Option Nat) : (s.setCfgTxRetryMax v).tretry = s.tretry := rfl
@[simp] theorem setCfgTxRetryMax_status (s : State) (v : Option Nat) : (s.setCfgTxRetryMax v).status = s.status := rfl
@[simp] theorem setCfgTxRetryMax_psize (s : State) (v : Option Nat) : (s.setCfgTxRetryMax v).psize = s.psize := rfl
@[simp] theorem setCfgTxRetryMax_idx (s : State) (v : Option Nat) : (s.setCfgTxRetryMax v).idx = s.idx := rfl
@[simp] theorem setCfgTxRetryMax_rblk (s : State) (v : Option Nat) : (s.setCfgTxRetryMax v).rblk = s.rblk := rfl
@[simp] theorem setCfgTxRetryMax_rcblk (s : State) (v : Option Nat) : (s.setCfgTxRetryMax v).rcblk = s.rcblk := rfl
@[simp] theorem setCfgTxRetryMax_chkbuf (s : State) (v : Option Nat) : (s.setCfgTxRetryMax v).chkbuf = s.chkbuf := rfl
@[simp] theorem setCfgTxRetryMax_cidx (s : State) (v : Option Nat) : (s.setCfgTxRetryMax v).cidx = s.cidx := rfl
@[simp] theorem setCfgTxRetryMax_chklen (s : State) (v : Option Nat) : (s.setCfgTxRetryMax v).chklen = s.chklen := rfl
@[simp] theorem setCfgTxRetryMax_l (s : State) (v : Option Nat) : (s.setCfgTxRetryMax v).l = s.l := rfl
@[simp] theorem setCfgTxRetryMax_pbuf (s : State) (v : Option Nat) : (s.setCfgTxRetryMax v).pbuf = s.pbuf := rfl
@[simp] theorem setCfgTxRetryMax_n (s : State) (v : Option Nat) : (s.setCfgTxRetryMax v).n = s.n := rfl
@[simp] theorem setCfgTxRetryMax_frame (s : State) (v : Option Nat) : (s.setCfgTxRetryMax v).frame = s.frame := rfl
@[simp] theorem setCfgTxRetryMax_flen (s : State) (v : Option Nat) : (s.setCfgTxRetryMax v).flen = s.flen := rfl
@[simp] theorem setCfgTxRetryMax_result (s : State) (v : Option Nat) : (s.setCfgTxRetryMax v).result = s.result := rfl
@[simp] theorem setCfgTxRetryMax_lastError (s : State) (v : Option Nat) : (s.setCfgTxRetryMax v).lastError = s.lastError := rfl
@[simp] theorem setCfgTxRetryMax_storageCode (s : State) (v : Option Nat) : (s.setCfgTxRetryMax v).storageCode = s.storageCode := rfl
@[simp] theorem setCfgTxRetryMax_bytes (s : State) (v : Option Nat) : (s.setCfgTxRetryMax v).bytes = s.bytes := rfl
@[simp] theorem setCfgTxRetryMax_cfgRetryMax (s : State) (v : Option Nat) : (s.setCfgTxRetryMax v).cfgRetryMax = s.cfgRetryMax := rfl
@[simp] theorem setCfgTxRetryMax_cfgTxRetryMax (s : State) (v : Option Nat) : (s.setCfgTxRetryMax v).cfgTxRetryMax = v := rfl
@[simp] theorem setCfgTxRetryMax_cfgRxInitMode (s : State) (v : Option Nat) : (s.setCfgTxRetryMax v).cfgRxInitMode = s.cfgRxInitMode := rfl
@[simp] theorem setCfgTxRetryMax_cfgRxText (s : State) (v : Option Nat) : (s.setCfgTxRetryMax v).cfgRxText = s.cfgRxText := rfl
@[simp] theorem setCfgTxRetryMax_cfgFirstTagRule (s : State) (v : Option Nat) : (s.setCfgTxRetryMax v).cfgFirstTagRule = s.cfgFirstTagRule := rfl
@[simp] theorem setCfgTxRetryMax_faulted (s : State) (v : Option Nat) : (s.setCfgTxRetryMax v).faulted = s.faulted := rfl
@[simp] theorem setCfgTxRetryMax_faultReason (s : State) (v : Option Nat) : (s.setCfgTxRetryMax v).faultReason = s.faultReason := rfl
@[simp] theorem setCfgTxRetryMax_srcAsked (s : State) (v : Option Nat) : (s.setCfgTxRetryMax v).srcAsked = s.srcAsked := rfl
@[simp] theorem setCfgTxRetryMax_out (s : State) (v : Option Nat) : (s.setCfgTxRetryMax v).out = s.out := rfl
@[simp] theorem setCfgTxRetryMax_inbox (s : State) (v : Option Nat) : (s.setCfgTxRetryMax v).inbox = s.inbox := rfl
@[simp] theorem setCfgTxRetryMax_dp (s : State) (v : Option Nat) : (s.setCfgTxRetryMax v).dp = s.dp := rfl
@[simp] theorem setCfgTxRetryMax_bytesWidth (s : State) (v : Option Nat) : (s.setCfgTxRetryMax v).bytesWidth = s.bytesWidth := rfl
@[simp] theorem setCfgTxRetryMax_codes (s : State) (v : Option Nat) : (s.setCfgTxRetryMax v).codes = s.codes := rfl

/-! `setCfgRxInitMode` writes `cfgRxInitMode` and nothing else. -/

@[simp] theorem setCfgRxInitMode_busy (s : State) (v : Option Mode) : (s.setCfgRxInitMode v).busy = s.busy := rfl
@[simp] theorem setCfgRxInitMode_role (s : State) (v : Option Mode) : (s.setCfgRxInitMode v).role = s.role := rfl
@[simp] theorem setCfgRxInitMode_rxst (s : State) (v : Option Mode) : (s.setCfgRxInitMode v).rxst = s.rxst := rfl
@[simp] theorem setCfgRxInitMode_txst (s : State) (v : Option Mode) : (s.setCfgRxInitMode v).txst = s.txst := rfl
@[simp] theorem setCfgRxInitMode_ph (s : State) (v : Option Mode) : (s.setCfgRxInitMode v).ph = s.ph := rfl
@[simp] theorem setCfgRxInitMode_req (s : State) (v : Option Mode) : (s.setCfgRxInitMode v).req = s.req := rfl
@[simp] theorem setCfgRxInitMode_mode (s : State) (v : Option Mode) : (s.setCfgRxInitMode v).mode = s.mode := rfl
@[simp] theorem setCfgRxInitMode_blk (s : State) (v : Option Mode) : (s.setCfgRxInitMode v).blk = s.blk := rfl
@[simp] theorem setCfgRxInitMode_blkset (s : State) (v : Option Mode) : (s.setCfgRxInitMode v).blkset = s.blkset := rfl
@[simp] theorem setCfgRxInitMode_retry (s : State) (v : Option Mode) : (s.setCfgRxInitMode v).retry = s.retry := rfl
@[simp] theorem setCfgRxInitMode_tretry (s : State) (v : Option Mode) : (s.setCfgRxInitMode v).tretry = s.tretry := rfl
@[simp] theorem setCfgRxInitMode_status (s : State) (v : Option Mode) : (s.setCfgRxInitMode v).status = s.status := rfl
@[simp] theorem setCfgRxInitMode_psize (s : State) (v : Option Mode) : (s.setCfgRxInitMode v).psize = s.psize := rfl
@[simp] theorem setCfgRxInitMode_idx (s : State) (v : Option Mode) : (s.setCfgRxInitMode v).idx = s.idx := rfl
@[simp] theorem setCfgRxInitMode_rblk (s : State) (v : Option Mode) : (s.setCfgRxInitMode v).rblk = s.rblk := rfl
@[simp] theorem setCfgRxInitMode_rcblk (s : State) (v : Option Mode) : (s.setCfgRxInitMode v).rcblk = s.rcblk := rfl
@[simp] theorem setCfgRxInitMode_chkbuf (s : State) (v : Option Mode) : (s.setCfgRxInitMode v).chkbuf = s.chkbuf := rfl
@[simp] theorem setCfgRxInitMode_cidx (s : State) (v : Option Mode) : (s.setCfgRxInitMode v).cidx = s.cidx := rfl
@[simp] theorem setCfgRxInitMode_chklen (s : State) (v : Option Mode) : (s.setCfgRxInitMode v).chklen = s.chklen := rfl
@[simp] theorem setCfgRxInitMode_l (s : State) (v : Option Mode) : (s.setCfgRxInitMode v).l = s.l := rfl
@[simp] theorem setCfgRxInitMode_pbuf (s : State) (v : Option Mode) : (s.setCfgRxInitMode v).pbuf = s.pbuf := rfl
@[simp] theorem setCfgRxInitMode_n (s : State) (v : Option Mode) : (s.setCfgRxInitMode v).n = s.n := rfl
@[simp] theorem setCfgRxInitMode_frame (s : State) (v : Option Mode) : (s.setCfgRxInitMode v).frame = s.frame := rfl
@[simp] theorem setCfgRxInitMode_flen (s : State) (v : Option Mode) : (s.setCfgRxInitMode v).flen = s.flen := rfl
@[simp] theorem setCfgRxInitMode_result (s : State) (v : Option Mode) : (s.setCfgRxInitMode v).result = s.result := rfl
@[simp] theorem setCfgRxInitMode_lastError (s : State) (v : Option Mode) : (s.setCfgRxInitMode v).lastError = s.lastError := rfl
@[simp] theorem setCfgRxInitMode_storageCode (s : State) (v : Option Mode) : (s.setCfgRxInitMode v).storageCode = s.storageCode := rfl
@[simp] theorem setCfgRxInitMode_bytes (s : State) (v : Option Mode) : (s.setCfgRxInitMode v).bytes = s.bytes := rfl
@[simp] theorem setCfgRxInitMode_cfgRetryMax (s : State) (v : Option Mode) : (s.setCfgRxInitMode v).cfgRetryMax = s.cfgRetryMax := rfl
@[simp] theorem setCfgRxInitMode_cfgTxRetryMax (s : State) (v : Option Mode) : (s.setCfgRxInitMode v).cfgTxRetryMax = s.cfgTxRetryMax := rfl
@[simp] theorem setCfgRxInitMode_cfgRxInitMode (s : State) (v : Option Mode) : (s.setCfgRxInitMode v).cfgRxInitMode = v := rfl
@[simp] theorem setCfgRxInitMode_cfgRxText (s : State) (v : Option Mode) : (s.setCfgRxInitMode v).cfgRxText = s.cfgRxText := rfl
@[simp] theorem setCfgRxInitMode_cfgFirstTagRule (s : State) (v : Option Mode) : (s.setCfgRxInitMode v).cfgFirstTagRule = s.cfgFirstTagRule := rfl
@[simp] theorem setCfgRxInitMode_faulted (s : State) (v : Option Mode) : (s.setCfgRxInitMode v).faulted = s.faulted := rfl
@[simp] theorem setCfgRxInitMode_faultReason (s : State) (v : Option Mode) : (s.setCfgRxInitMode v).faultReason = s.faultReason := rfl
@[simp] theorem setCfgRxInitMode_srcAsked (s : State) (v : Option Mode) : (s.setCfgRxInitMode v).srcAsked = s.srcAsked := rfl
@[simp] theorem setCfgRxInitMode_out (s : State) (v : Option Mode) : (s.setCfgRxInitMode v).out = s.out := rfl
@[simp] theorem setCfgRxInitMode_inbox (s : State) (v : Option Mode) : (s.setCfgRxInitMode v).inbox = s.inbox := rfl
@[simp] theorem setCfgRxInitMode_dp (s : State) (v : Option Mode) : (s.setCfgRxInitMode v).dp = s.dp := rfl
@[simp] theorem setCfgRxInitMode_bytesWidth (s : State) (v : Option Mode) : (s.setCfgRxInitMode v).bytesWidth = s.bytesWidth := rfl
@[simp] theorem setCfgRxInitMode_codes (s : State) (v : Option Mode) : (s.setCfgRxInitMode v).codes = s.codes := rfl

/-! `setCfgRxText` writes `cfgRxText` and nothing else. -/

@[simp] theorem setCfgRxText_busy (s : State) (v : Option Bool) : (s.setCfgRxText v).busy = s.busy := rfl
@[simp] theorem setCfgRxText_role (s : State) (v : Option Bool) : (s.setCfgRxText v).role = s.role := rfl
@[simp] theorem setCfgRxText_rxst (s : State) (v : Option Bool) : (s.setCfgRxText v).rxst = s.rxst := rfl
@[simp] theorem setCfgRxText_txst (s : State) (v : Option Bool) : (s.setCfgRxText v).txst = s.txst := rfl
@[simp] theorem setCfgRxText_ph (s : State) (v : Option Bool) : (s.setCfgRxText v).ph = s.ph := rfl
@[simp] theorem setCfgRxText_req (s : State) (v : Option Bool) : (s.setCfgRxText v).req = s.req := rfl
@[simp] theorem setCfgRxText_mode (s : State) (v : Option Bool) : (s.setCfgRxText v).mode = s.mode := rfl
@[simp] theorem setCfgRxText_blk (s : State) (v : Option Bool) : (s.setCfgRxText v).blk = s.blk := rfl
@[simp] theorem setCfgRxText_blkset (s : State) (v : Option Bool) : (s.setCfgRxText v).blkset = s.blkset := rfl
@[simp] theorem setCfgRxText_retry (s : State) (v : Option Bool) : (s.setCfgRxText v).retry = s.retry := rfl
@[simp] theorem setCfgRxText_tretry (s : State) (v : Option Bool) : (s.setCfgRxText v).tretry = s.tretry := rfl
@[simp] theorem setCfgRxText_status (s : State) (v : Option Bool) : (s.setCfgRxText v).status = s.status := rfl
@[simp] theorem setCfgRxText_psize (s : State) (v : Option Bool) : (s.setCfgRxText v).psize = s.psize := rfl
@[simp] theorem setCfgRxText_idx (s : State) (v : Option Bool) : (s.setCfgRxText v).idx = s.idx := rfl
@[simp] theorem setCfgRxText_rblk (s : State) (v : Option Bool) : (s.setCfgRxText v).rblk = s.rblk := rfl
@[simp] theorem setCfgRxText_rcblk (s : State) (v : Option Bool) : (s.setCfgRxText v).rcblk = s.rcblk := rfl
@[simp] theorem setCfgRxText_chkbuf (s : State) (v : Option Bool) : (s.setCfgRxText v).chkbuf = s.chkbuf := rfl
@[simp] theorem setCfgRxText_cidx (s : State) (v : Option Bool) : (s.setCfgRxText v).cidx = s.cidx := rfl
@[simp] theorem setCfgRxText_chklen (s : State) (v : Option Bool) : (s.setCfgRxText v).chklen = s.chklen := rfl
@[simp] theorem setCfgRxText_l (s : State) (v : Option Bool) : (s.setCfgRxText v).l = s.l := rfl
@[simp] theorem setCfgRxText_pbuf (s : State) (v : Option Bool) : (s.setCfgRxText v).pbuf = s.pbuf := rfl
@[simp] theorem setCfgRxText_n (s : State) (v : Option Bool) : (s.setCfgRxText v).n = s.n := rfl
@[simp] theorem setCfgRxText_frame (s : State) (v : Option Bool) : (s.setCfgRxText v).frame = s.frame := rfl
@[simp] theorem setCfgRxText_flen (s : State) (v : Option Bool) : (s.setCfgRxText v).flen = s.flen := rfl
@[simp] theorem setCfgRxText_result (s : State) (v : Option Bool) : (s.setCfgRxText v).result = s.result := rfl
@[simp] theorem setCfgRxText_lastError (s : State) (v : Option Bool) : (s.setCfgRxText v).lastError = s.lastError := rfl
@[simp] theorem setCfgRxText_storageCode (s : State) (v : Option Bool) : (s.setCfgRxText v).storageCode = s.storageCode := rfl
@[simp] theorem setCfgRxText_bytes (s : State) (v : Option Bool) : (s.setCfgRxText v).bytes = s.bytes := rfl
@[simp] theorem setCfgRxText_cfgRetryMax (s : State) (v : Option Bool) : (s.setCfgRxText v).cfgRetryMax = s.cfgRetryMax := rfl
@[simp] theorem setCfgRxText_cfgTxRetryMax (s : State) (v : Option Bool) : (s.setCfgRxText v).cfgTxRetryMax = s.cfgTxRetryMax := rfl
@[simp] theorem setCfgRxText_cfgRxInitMode (s : State) (v : Option Bool) : (s.setCfgRxText v).cfgRxInitMode = s.cfgRxInitMode := rfl
@[simp] theorem setCfgRxText_cfgRxText (s : State) (v : Option Bool) : (s.setCfgRxText v).cfgRxText = v := rfl
@[simp] theorem setCfgRxText_cfgFirstTagRule (s : State) (v : Option Bool) : (s.setCfgRxText v).cfgFirstTagRule = s.cfgFirstTagRule := rfl
@[simp] theorem setCfgRxText_faulted (s : State) (v : Option Bool) : (s.setCfgRxText v).faulted = s.faulted := rfl
@[simp] theorem setCfgRxText_faultReason (s : State) (v : Option Bool) : (s.setCfgRxText v).faultReason = s.faultReason := rfl
@[simp] theorem setCfgRxText_srcAsked (s : State) (v : Option Bool) : (s.setCfgRxText v).srcAsked = s.srcAsked := rfl
@[simp] theorem setCfgRxText_out (s : State) (v : Option Bool) : (s.setCfgRxText v).out = s.out := rfl
@[simp] theorem setCfgRxText_inbox (s : State) (v : Option Bool) : (s.setCfgRxText v).inbox = s.inbox := rfl
@[simp] theorem setCfgRxText_dp (s : State) (v : Option Bool) : (s.setCfgRxText v).dp = s.dp := rfl
@[simp] theorem setCfgRxText_bytesWidth (s : State) (v : Option Bool) : (s.setCfgRxText v).bytesWidth = s.bytesWidth := rfl
@[simp] theorem setCfgRxText_codes (s : State) (v : Option Bool) : (s.setCfgRxText v).codes = s.codes := rfl

/-! `setCfgFirstTagRule` writes `cfgFirstTagRule` and nothing else. -/

@[simp] theorem setCfgFirstTagRule_busy (s : State) (v : Option FirstTagRule) : (s.setCfgFirstTagRule v).busy = s.busy := rfl
@[simp] theorem setCfgFirstTagRule_role (s : State) (v : Option FirstTagRule) : (s.setCfgFirstTagRule v).role = s.role := rfl
@[simp] theorem setCfgFirstTagRule_rxst (s : State) (v : Option FirstTagRule) : (s.setCfgFirstTagRule v).rxst = s.rxst := rfl
@[simp] theorem setCfgFirstTagRule_txst (s : State) (v : Option FirstTagRule) : (s.setCfgFirstTagRule v).txst = s.txst := rfl
@[simp] theorem setCfgFirstTagRule_ph (s : State) (v : Option FirstTagRule) : (s.setCfgFirstTagRule v).ph = s.ph := rfl
@[simp] theorem setCfgFirstTagRule_req (s : State) (v : Option FirstTagRule) : (s.setCfgFirstTagRule v).req = s.req := rfl
@[simp] theorem setCfgFirstTagRule_mode (s : State) (v : Option FirstTagRule) : (s.setCfgFirstTagRule v).mode = s.mode := rfl
@[simp] theorem setCfgFirstTagRule_blk (s : State) (v : Option FirstTagRule) : (s.setCfgFirstTagRule v).blk = s.blk := rfl
@[simp] theorem setCfgFirstTagRule_blkset (s : State) (v : Option FirstTagRule) : (s.setCfgFirstTagRule v).blkset = s.blkset := rfl
@[simp] theorem setCfgFirstTagRule_retry (s : State) (v : Option FirstTagRule) : (s.setCfgFirstTagRule v).retry = s.retry := rfl
@[simp] theorem setCfgFirstTagRule_tretry (s : State) (v : Option FirstTagRule) : (s.setCfgFirstTagRule v).tretry = s.tretry := rfl
@[simp] theorem setCfgFirstTagRule_status (s : State) (v : Option FirstTagRule) : (s.setCfgFirstTagRule v).status = s.status := rfl
@[simp] theorem setCfgFirstTagRule_psize (s : State) (v : Option FirstTagRule) : (s.setCfgFirstTagRule v).psize = s.psize := rfl
@[simp] theorem setCfgFirstTagRule_idx (s : State) (v : Option FirstTagRule) : (s.setCfgFirstTagRule v).idx = s.idx := rfl
@[simp] theorem setCfgFirstTagRule_rblk (s : State) (v : Option FirstTagRule) : (s.setCfgFirstTagRule v).rblk = s.rblk := rfl
@[simp] theorem setCfgFirstTagRule_rcblk (s : State) (v : Option FirstTagRule) : (s.setCfgFirstTagRule v).rcblk = s.rcblk := rfl
@[simp] theorem setCfgFirstTagRule_chkbuf (s : State) (v : Option FirstTagRule) : (s.setCfgFirstTagRule v).chkbuf = s.chkbuf := rfl
@[simp] theorem setCfgFirstTagRule_cidx (s : State) (v : Option FirstTagRule) : (s.setCfgFirstTagRule v).cidx = s.cidx := rfl
@[simp] theorem setCfgFirstTagRule_chklen (s : State) (v : Option FirstTagRule) : (s.setCfgFirstTagRule v).chklen = s.chklen := rfl
@[simp] theorem setCfgFirstTagRule_l (s : State) (v : Option FirstTagRule) : (s.setCfgFirstTagRule v).l = s.l := rfl
@[simp] theorem setCfgFirstTagRule_pbuf (s : State) (v : Option FirstTagRule) : (s.setCfgFirstTagRule v).pbuf = s.pbuf := rfl
@[simp] theorem setCfgFirstTagRule_n (s : State) (v : Option FirstTagRule) : (s.setCfgFirstTagRule v).n = s.n := rfl
@[simp] theorem setCfgFirstTagRule_frame (s : State) (v : Option FirstTagRule) : (s.setCfgFirstTagRule v).frame = s.frame := rfl
@[simp] theorem setCfgFirstTagRule_flen (s : State) (v : Option FirstTagRule) : (s.setCfgFirstTagRule v).flen = s.flen := rfl
@[simp] theorem setCfgFirstTagRule_result (s : State) (v : Option FirstTagRule) : (s.setCfgFirstTagRule v).result = s.result := rfl
@[simp] theorem setCfgFirstTagRule_lastError (s : State) (v : Option FirstTagRule) : (s.setCfgFirstTagRule v).lastError = s.lastError := rfl
@[simp] theorem setCfgFirstTagRule_storageCode (s : State) (v : Option FirstTagRule) : (s.setCfgFirstTagRule v).storageCode = s.storageCode := rfl
@[simp] theorem setCfgFirstTagRule_bytes (s : State) (v : Option FirstTagRule) : (s.setCfgFirstTagRule v).bytes = s.bytes := rfl
@[simp] theorem setCfgFirstTagRule_cfgRetryMax (s : State) (v : Option FirstTagRule) : (s.setCfgFirstTagRule v).cfgRetryMax = s.cfgRetryMax := rfl
@[simp] theorem setCfgFirstTagRule_cfgTxRetryMax (s : State) (v : Option FirstTagRule) : (s.setCfgFirstTagRule v).cfgTxRetryMax = s.cfgTxRetryMax := rfl
@[simp] theorem setCfgFirstTagRule_cfgRxInitMode (s : State) (v : Option FirstTagRule) : (s.setCfgFirstTagRule v).cfgRxInitMode = s.cfgRxInitMode := rfl
@[simp] theorem setCfgFirstTagRule_cfgRxText (s : State) (v : Option FirstTagRule) : (s.setCfgFirstTagRule v).cfgRxText = s.cfgRxText := rfl
@[simp] theorem setCfgFirstTagRule_cfgFirstTagRule (s : State) (v : Option FirstTagRule) : (s.setCfgFirstTagRule v).cfgFirstTagRule = v := rfl
@[simp] theorem setCfgFirstTagRule_faulted (s : State) (v : Option FirstTagRule) : (s.setCfgFirstTagRule v).faulted = s.faulted := rfl
@[simp] theorem setCfgFirstTagRule_faultReason (s : State) (v : Option FirstTagRule) : (s.setCfgFirstTagRule v).faultReason = s.faultReason := rfl
@[simp] theorem setCfgFirstTagRule_srcAsked (s : State) (v : Option FirstTagRule) : (s.setCfgFirstTagRule v).srcAsked = s.srcAsked := rfl
@[simp] theorem setCfgFirstTagRule_out (s : State) (v : Option FirstTagRule) : (s.setCfgFirstTagRule v).out = s.out := rfl
@[simp] theorem setCfgFirstTagRule_inbox (s : State) (v : Option FirstTagRule) : (s.setCfgFirstTagRule v).inbox = s.inbox := rfl
@[simp] theorem setCfgFirstTagRule_dp (s : State) (v : Option FirstTagRule) : (s.setCfgFirstTagRule v).dp = s.dp := rfl
@[simp] theorem setCfgFirstTagRule_bytesWidth (s : State) (v : Option FirstTagRule) : (s.setCfgFirstTagRule v).bytesWidth = s.bytesWidth := rfl
@[simp] theorem setCfgFirstTagRule_codes (s : State) (v : Option FirstTagRule) : (s.setCfgFirstTagRule v).codes = s.codes := rfl

/-! `setFaulted` writes `faulted` and nothing else. -/

@[simp] theorem setFaulted_busy (s : State) (v : Bool) : (s.setFaulted v).busy = s.busy := rfl
@[simp] theorem setFaulted_role (s : State) (v : Bool) : (s.setFaulted v).role = s.role := rfl
@[simp] theorem setFaulted_rxst (s : State) (v : Bool) : (s.setFaulted v).rxst = s.rxst := rfl
@[simp] theorem setFaulted_txst (s : State) (v : Bool) : (s.setFaulted v).txst = s.txst := rfl
@[simp] theorem setFaulted_ph (s : State) (v : Bool) : (s.setFaulted v).ph = s.ph := rfl
@[simp] theorem setFaulted_req (s : State) (v : Bool) : (s.setFaulted v).req = s.req := rfl
@[simp] theorem setFaulted_mode (s : State) (v : Bool) : (s.setFaulted v).mode = s.mode := rfl
@[simp] theorem setFaulted_blk (s : State) (v : Bool) : (s.setFaulted v).blk = s.blk := rfl
@[simp] theorem setFaulted_blkset (s : State) (v : Bool) : (s.setFaulted v).blkset = s.blkset := rfl
@[simp] theorem setFaulted_retry (s : State) (v : Bool) : (s.setFaulted v).retry = s.retry := rfl
@[simp] theorem setFaulted_tretry (s : State) (v : Bool) : (s.setFaulted v).tretry = s.tretry := rfl
@[simp] theorem setFaulted_status (s : State) (v : Bool) : (s.setFaulted v).status = s.status := rfl
@[simp] theorem setFaulted_psize (s : State) (v : Bool) : (s.setFaulted v).psize = s.psize := rfl
@[simp] theorem setFaulted_idx (s : State) (v : Bool) : (s.setFaulted v).idx = s.idx := rfl
@[simp] theorem setFaulted_rblk (s : State) (v : Bool) : (s.setFaulted v).rblk = s.rblk := rfl
@[simp] theorem setFaulted_rcblk (s : State) (v : Bool) : (s.setFaulted v).rcblk = s.rcblk := rfl
@[simp] theorem setFaulted_chkbuf (s : State) (v : Bool) : (s.setFaulted v).chkbuf = s.chkbuf := rfl
@[simp] theorem setFaulted_cidx (s : State) (v : Bool) : (s.setFaulted v).cidx = s.cidx := rfl
@[simp] theorem setFaulted_chklen (s : State) (v : Bool) : (s.setFaulted v).chklen = s.chklen := rfl
@[simp] theorem setFaulted_l (s : State) (v : Bool) : (s.setFaulted v).l = s.l := rfl
@[simp] theorem setFaulted_pbuf (s : State) (v : Bool) : (s.setFaulted v).pbuf = s.pbuf := rfl
@[simp] theorem setFaulted_n (s : State) (v : Bool) : (s.setFaulted v).n = s.n := rfl
@[simp] theorem setFaulted_frame (s : State) (v : Bool) : (s.setFaulted v).frame = s.frame := rfl
@[simp] theorem setFaulted_flen (s : State) (v : Bool) : (s.setFaulted v).flen = s.flen := rfl
@[simp] theorem setFaulted_result (s : State) (v : Bool) : (s.setFaulted v).result = s.result := rfl
@[simp] theorem setFaulted_lastError (s : State) (v : Bool) : (s.setFaulted v).lastError = s.lastError := rfl
@[simp] theorem setFaulted_storageCode (s : State) (v : Bool) : (s.setFaulted v).storageCode = s.storageCode := rfl
@[simp] theorem setFaulted_bytes (s : State) (v : Bool) : (s.setFaulted v).bytes = s.bytes := rfl
@[simp] theorem setFaulted_cfgRetryMax (s : State) (v : Bool) : (s.setFaulted v).cfgRetryMax = s.cfgRetryMax := rfl
@[simp] theorem setFaulted_cfgTxRetryMax (s : State) (v : Bool) : (s.setFaulted v).cfgTxRetryMax = s.cfgTxRetryMax := rfl
@[simp] theorem setFaulted_cfgRxInitMode (s : State) (v : Bool) : (s.setFaulted v).cfgRxInitMode = s.cfgRxInitMode := rfl
@[simp] theorem setFaulted_cfgRxText (s : State) (v : Bool) : (s.setFaulted v).cfgRxText = s.cfgRxText := rfl
@[simp] theorem setFaulted_cfgFirstTagRule (s : State) (v : Bool) : (s.setFaulted v).cfgFirstTagRule = s.cfgFirstTagRule := rfl
@[simp] theorem setFaulted_faulted (s : State) (v : Bool) : (s.setFaulted v).faulted = v := rfl
@[simp] theorem setFaulted_faultReason (s : State) (v : Bool) : (s.setFaulted v).faultReason = s.faultReason := rfl
@[simp] theorem setFaulted_srcAsked (s : State) (v : Bool) : (s.setFaulted v).srcAsked = s.srcAsked := rfl
@[simp] theorem setFaulted_out (s : State) (v : Bool) : (s.setFaulted v).out = s.out := rfl
@[simp] theorem setFaulted_inbox (s : State) (v : Bool) : (s.setFaulted v).inbox = s.inbox := rfl
@[simp] theorem setFaulted_dp (s : State) (v : Bool) : (s.setFaulted v).dp = s.dp := rfl
@[simp] theorem setFaulted_bytesWidth (s : State) (v : Bool) : (s.setFaulted v).bytesWidth = s.bytesWidth := rfl
@[simp] theorem setFaulted_codes (s : State) (v : Bool) : (s.setFaulted v).codes = s.codes := rfl

/-! `setFaultReason` writes `faultReason` and nothing else. -/

@[simp] theorem setFaultReason_busy (s : State) (v : Option FaultReason) : (s.setFaultReason v).busy = s.busy := rfl
@[simp] theorem setFaultReason_role (s : State) (v : Option FaultReason) : (s.setFaultReason v).role = s.role := rfl
@[simp] theorem setFaultReason_rxst (s : State) (v : Option FaultReason) : (s.setFaultReason v).rxst = s.rxst := rfl
@[simp] theorem setFaultReason_txst (s : State) (v : Option FaultReason) : (s.setFaultReason v).txst = s.txst := rfl
@[simp] theorem setFaultReason_ph (s : State) (v : Option FaultReason) : (s.setFaultReason v).ph = s.ph := rfl
@[simp] theorem setFaultReason_req (s : State) (v : Option FaultReason) : (s.setFaultReason v).req = s.req := rfl
@[simp] theorem setFaultReason_mode (s : State) (v : Option FaultReason) : (s.setFaultReason v).mode = s.mode := rfl
@[simp] theorem setFaultReason_blk (s : State) (v : Option FaultReason) : (s.setFaultReason v).blk = s.blk := rfl
@[simp] theorem setFaultReason_blkset (s : State) (v : Option FaultReason) : (s.setFaultReason v).blkset = s.blkset := rfl
@[simp] theorem setFaultReason_retry (s : State) (v : Option FaultReason) : (s.setFaultReason v).retry = s.retry := rfl
@[simp] theorem setFaultReason_tretry (s : State) (v : Option FaultReason) : (s.setFaultReason v).tretry = s.tretry := rfl
@[simp] theorem setFaultReason_status (s : State) (v : Option FaultReason) : (s.setFaultReason v).status = s.status := rfl
@[simp] theorem setFaultReason_psize (s : State) (v : Option FaultReason) : (s.setFaultReason v).psize = s.psize := rfl
@[simp] theorem setFaultReason_idx (s : State) (v : Option FaultReason) : (s.setFaultReason v).idx = s.idx := rfl
@[simp] theorem setFaultReason_rblk (s : State) (v : Option FaultReason) : (s.setFaultReason v).rblk = s.rblk := rfl
@[simp] theorem setFaultReason_rcblk (s : State) (v : Option FaultReason) : (s.setFaultReason v).rcblk = s.rcblk := rfl
@[simp] theorem setFaultReason_chkbuf (s : State) (v : Option FaultReason) : (s.setFaultReason v).chkbuf = s.chkbuf := rfl
@[simp] theorem setFaultReason_cidx (s : State) (v : Option FaultReason) : (s.setFaultReason v).cidx = s.cidx := rfl
@[simp] theorem setFaultReason_chklen (s : State) (v : Option FaultReason) : (s.setFaultReason v).chklen = s.chklen := rfl
@[simp] theorem setFaultReason_l (s : State) (v : Option FaultReason) : (s.setFaultReason v).l = s.l := rfl
@[simp] theorem setFaultReason_pbuf (s : State) (v : Option FaultReason) : (s.setFaultReason v).pbuf = s.pbuf := rfl
@[simp] theorem setFaultReason_n (s : State) (v : Option FaultReason) : (s.setFaultReason v).n = s.n := rfl
@[simp] theorem setFaultReason_frame (s : State) (v : Option FaultReason) : (s.setFaultReason v).frame = s.frame := rfl
@[simp] theorem setFaultReason_flen (s : State) (v : Option FaultReason) : (s.setFaultReason v).flen = s.flen := rfl
@[simp] theorem setFaultReason_result (s : State) (v : Option FaultReason) : (s.setFaultReason v).result = s.result := rfl
@[simp] theorem setFaultReason_lastError (s : State) (v : Option FaultReason) : (s.setFaultReason v).lastError = s.lastError := rfl
@[simp] theorem setFaultReason_storageCode (s : State) (v : Option FaultReason) : (s.setFaultReason v).storageCode = s.storageCode := rfl
@[simp] theorem setFaultReason_bytes (s : State) (v : Option FaultReason) : (s.setFaultReason v).bytes = s.bytes := rfl
@[simp] theorem setFaultReason_cfgRetryMax (s : State) (v : Option FaultReason) : (s.setFaultReason v).cfgRetryMax = s.cfgRetryMax := rfl
@[simp] theorem setFaultReason_cfgTxRetryMax (s : State) (v : Option FaultReason) : (s.setFaultReason v).cfgTxRetryMax = s.cfgTxRetryMax := rfl
@[simp] theorem setFaultReason_cfgRxInitMode (s : State) (v : Option FaultReason) : (s.setFaultReason v).cfgRxInitMode = s.cfgRxInitMode := rfl
@[simp] theorem setFaultReason_cfgRxText (s : State) (v : Option FaultReason) : (s.setFaultReason v).cfgRxText = s.cfgRxText := rfl
@[simp] theorem setFaultReason_cfgFirstTagRule (s : State) (v : Option FaultReason) : (s.setFaultReason v).cfgFirstTagRule = s.cfgFirstTagRule := rfl
@[simp] theorem setFaultReason_faulted (s : State) (v : Option FaultReason) : (s.setFaultReason v).faulted = s.faulted := rfl
@[simp] theorem setFaultReason_faultReason (s : State) (v : Option FaultReason) : (s.setFaultReason v).faultReason = v := rfl
@[simp] theorem setFaultReason_srcAsked (s : State) (v : Option FaultReason) : (s.setFaultReason v).srcAsked = s.srcAsked := rfl
@[simp] theorem setFaultReason_out (s : State) (v : Option FaultReason) : (s.setFaultReason v).out = s.out := rfl
@[simp] theorem setFaultReason_inbox (s : State) (v : Option FaultReason) : (s.setFaultReason v).inbox = s.inbox := rfl
@[simp] theorem setFaultReason_dp (s : State) (v : Option FaultReason) : (s.setFaultReason v).dp = s.dp := rfl
@[simp] theorem setFaultReason_bytesWidth (s : State) (v : Option FaultReason) : (s.setFaultReason v).bytesWidth = s.bytesWidth := rfl
@[simp] theorem setFaultReason_codes (s : State) (v : Option FaultReason) : (s.setFaultReason v).codes = s.codes := rfl

/-! `setSrcAsked` writes `srcAsked` and nothing else. -/

@[simp] theorem setSrcAsked_busy (s : State) (v : Bool) : (s.setSrcAsked v).busy = s.busy := rfl
@[simp] theorem setSrcAsked_role (s : State) (v : Bool) : (s.setSrcAsked v).role = s.role := rfl
@[simp] theorem setSrcAsked_rxst (s : State) (v : Bool) : (s.setSrcAsked v).rxst = s.rxst := rfl
@[simp] theorem setSrcAsked_txst (s : State) (v : Bool) : (s.setSrcAsked v).txst = s.txst := rfl
@[simp] theorem setSrcAsked_ph (s : State) (v : Bool) : (s.setSrcAsked v).ph = s.ph := rfl
@[simp] theorem setSrcAsked_req (s : State) (v : Bool) : (s.setSrcAsked v).req = s.req := rfl
@[simp] theorem setSrcAsked_mode (s : State) (v : Bool) : (s.setSrcAsked v).mode = s.mode := rfl
@[simp] theorem setSrcAsked_blk (s : State) (v : Bool) : (s.setSrcAsked v).blk = s.blk := rfl
@[simp] theorem setSrcAsked_blkset (s : State) (v : Bool) : (s.setSrcAsked v).blkset = s.blkset := rfl
@[simp] theorem setSrcAsked_retry (s : State) (v : Bool) : (s.setSrcAsked v).retry = s.retry := rfl
@[simp] theorem setSrcAsked_tretry (s : State) (v : Bool) : (s.setSrcAsked v).tretry = s.tretry := rfl
@[simp] theorem setSrcAsked_status (s : State) (v : Bool) : (s.setSrcAsked v).status = s.status := rfl
@[simp] theorem setSrcAsked_psize (s : State) (v : Bool) : (s.setSrcAsked v).psize = s.psize := rfl
@[simp] theorem setSrcAsked_idx (s : State) (v : Bool) : (s.setSrcAsked v).idx = s.idx := rfl
@[simp] theorem setSrcAsked_rblk (s : State) (v : Bool) : (s.setSrcAsked v).rblk = s.rblk := rfl
@[simp] theorem setSrcAsked_rcblk (s : State) (v : Bool) : (s.setSrcAsked v).rcblk = s.rcblk := rfl
@[simp] theorem setSrcAsked_chkbuf (s : State) (v : Bool) : (s.setSrcAsked v).chkbuf = s.chkbuf := rfl
@[simp] theorem setSrcAsked_cidx (s : State) (v : Bool) : (s.setSrcAsked v).cidx = s.cidx := rfl
@[simp] theorem setSrcAsked_chklen (s : State) (v : Bool) : (s.setSrcAsked v).chklen = s.chklen := rfl
@[simp] theorem setSrcAsked_l (s : State) (v : Bool) : (s.setSrcAsked v).l = s.l := rfl
@[simp] theorem setSrcAsked_pbuf (s : State) (v : Bool) : (s.setSrcAsked v).pbuf = s.pbuf := rfl
@[simp] theorem setSrcAsked_n (s : State) (v : Bool) : (s.setSrcAsked v).n = s.n := rfl
@[simp] theorem setSrcAsked_frame (s : State) (v : Bool) : (s.setSrcAsked v).frame = s.frame := rfl
@[simp] theorem setSrcAsked_flen (s : State) (v : Bool) : (s.setSrcAsked v).flen = s.flen := rfl
@[simp] theorem setSrcAsked_result (s : State) (v : Bool) : (s.setSrcAsked v).result = s.result := rfl
@[simp] theorem setSrcAsked_lastError (s : State) (v : Bool) : (s.setSrcAsked v).lastError = s.lastError := rfl
@[simp] theorem setSrcAsked_storageCode (s : State) (v : Bool) : (s.setSrcAsked v).storageCode = s.storageCode := rfl
@[simp] theorem setSrcAsked_bytes (s : State) (v : Bool) : (s.setSrcAsked v).bytes = s.bytes := rfl
@[simp] theorem setSrcAsked_cfgRetryMax (s : State) (v : Bool) : (s.setSrcAsked v).cfgRetryMax = s.cfgRetryMax := rfl
@[simp] theorem setSrcAsked_cfgTxRetryMax (s : State) (v : Bool) : (s.setSrcAsked v).cfgTxRetryMax = s.cfgTxRetryMax := rfl
@[simp] theorem setSrcAsked_cfgRxInitMode (s : State) (v : Bool) : (s.setSrcAsked v).cfgRxInitMode = s.cfgRxInitMode := rfl
@[simp] theorem setSrcAsked_cfgRxText (s : State) (v : Bool) : (s.setSrcAsked v).cfgRxText = s.cfgRxText := rfl
@[simp] theorem setSrcAsked_cfgFirstTagRule (s : State) (v : Bool) : (s.setSrcAsked v).cfgFirstTagRule = s.cfgFirstTagRule := rfl
@[simp] theorem setSrcAsked_faulted (s : State) (v : Bool) : (s.setSrcAsked v).faulted = s.faulted := rfl
@[simp] theorem setSrcAsked_faultReason (s : State) (v : Bool) : (s.setSrcAsked v).faultReason = s.faultReason := rfl
@[simp] theorem setSrcAsked_srcAsked (s : State) (v : Bool) : (s.setSrcAsked v).srcAsked = v := rfl
@[simp] theorem setSrcAsked_out (s : State) (v : Bool) : (s.setSrcAsked v).out = s.out := rfl
@[simp] theorem setSrcAsked_inbox (s : State) (v : Bool) : (s.setSrcAsked v).inbox = s.inbox := rfl
@[simp] theorem setSrcAsked_dp (s : State) (v : Bool) : (s.setSrcAsked v).dp = s.dp := rfl
@[simp] theorem setSrcAsked_bytesWidth (s : State) (v : Bool) : (s.setSrcAsked v).bytesWidth = s.bytesWidth := rfl
@[simp] theorem setSrcAsked_codes (s : State) (v : Bool) : (s.setSrcAsked v).codes = s.codes := rfl

/-! `setOut` writes `out` and nothing else. -/

@[simp] theorem setOut_busy (s : State) (v : List Out) : (s.setOut v).busy = s.busy := rfl
@[simp] theorem setOut_role (s : State) (v : List Out) : (s.setOut v).role = s.role := rfl
@[simp] theorem setOut_rxst (s : State) (v : List Out) : (s.setOut v).rxst = s.rxst := rfl
@[simp] theorem setOut_txst (s : State) (v : List Out) : (s.setOut v).txst = s.txst := rfl
@[simp] theorem setOut_ph (s : State) (v : List Out) : (s.setOut v).ph = s.ph := rfl
@[simp] theorem setOut_req (s : State) (v : List Out) : (s.setOut v).req = s.req := rfl
@[simp] theorem setOut_mode (s : State) (v : List Out) : (s.setOut v).mode = s.mode := rfl
@[simp] theorem setOut_blk (s : State) (v : List Out) : (s.setOut v).blk = s.blk := rfl
@[simp] theorem setOut_blkset (s : State) (v : List Out) : (s.setOut v).blkset = s.blkset := rfl
@[simp] theorem setOut_retry (s : State) (v : List Out) : (s.setOut v).retry = s.retry := rfl
@[simp] theorem setOut_tretry (s : State) (v : List Out) : (s.setOut v).tretry = s.tretry := rfl
@[simp] theorem setOut_status (s : State) (v : List Out) : (s.setOut v).status = s.status := rfl
@[simp] theorem setOut_psize (s : State) (v : List Out) : (s.setOut v).psize = s.psize := rfl
@[simp] theorem setOut_idx (s : State) (v : List Out) : (s.setOut v).idx = s.idx := rfl
@[simp] theorem setOut_rblk (s : State) (v : List Out) : (s.setOut v).rblk = s.rblk := rfl
@[simp] theorem setOut_rcblk (s : State) (v : List Out) : (s.setOut v).rcblk = s.rcblk := rfl
@[simp] theorem setOut_chkbuf (s : State) (v : List Out) : (s.setOut v).chkbuf = s.chkbuf := rfl
@[simp] theorem setOut_cidx (s : State) (v : List Out) : (s.setOut v).cidx = s.cidx := rfl
@[simp] theorem setOut_chklen (s : State) (v : List Out) : (s.setOut v).chklen = s.chklen := rfl
@[simp] theorem setOut_l (s : State) (v : List Out) : (s.setOut v).l = s.l := rfl
@[simp] theorem setOut_pbuf (s : State) (v : List Out) : (s.setOut v).pbuf = s.pbuf := rfl
@[simp] theorem setOut_n (s : State) (v : List Out) : (s.setOut v).n = s.n := rfl
@[simp] theorem setOut_frame (s : State) (v : List Out) : (s.setOut v).frame = s.frame := rfl
@[simp] theorem setOut_flen (s : State) (v : List Out) : (s.setOut v).flen = s.flen := rfl
@[simp] theorem setOut_result (s : State) (v : List Out) : (s.setOut v).result = s.result := rfl
@[simp] theorem setOut_lastError (s : State) (v : List Out) : (s.setOut v).lastError = s.lastError := rfl
@[simp] theorem setOut_storageCode (s : State) (v : List Out) : (s.setOut v).storageCode = s.storageCode := rfl
@[simp] theorem setOut_bytes (s : State) (v : List Out) : (s.setOut v).bytes = s.bytes := rfl
@[simp] theorem setOut_cfgRetryMax (s : State) (v : List Out) : (s.setOut v).cfgRetryMax = s.cfgRetryMax := rfl
@[simp] theorem setOut_cfgTxRetryMax (s : State) (v : List Out) : (s.setOut v).cfgTxRetryMax = s.cfgTxRetryMax := rfl
@[simp] theorem setOut_cfgRxInitMode (s : State) (v : List Out) : (s.setOut v).cfgRxInitMode = s.cfgRxInitMode := rfl
@[simp] theorem setOut_cfgRxText (s : State) (v : List Out) : (s.setOut v).cfgRxText = s.cfgRxText := rfl
@[simp] theorem setOut_cfgFirstTagRule (s : State) (v : List Out) : (s.setOut v).cfgFirstTagRule = s.cfgFirstTagRule := rfl
@[simp] theorem setOut_faulted (s : State) (v : List Out) : (s.setOut v).faulted = s.faulted := rfl
@[simp] theorem setOut_faultReason (s : State) (v : List Out) : (s.setOut v).faultReason = s.faultReason := rfl
@[simp] theorem setOut_srcAsked (s : State) (v : List Out) : (s.setOut v).srcAsked = s.srcAsked := rfl
@[simp] theorem setOut_out (s : State) (v : List Out) : (s.setOut v).out = v := rfl
@[simp] theorem setOut_inbox (s : State) (v : List Out) : (s.setOut v).inbox = s.inbox := rfl
@[simp] theorem setOut_dp (s : State) (v : List Out) : (s.setOut v).dp = s.dp := rfl
@[simp] theorem setOut_bytesWidth (s : State) (v : List Out) : (s.setOut v).bytesWidth = s.bytesWidth := rfl
@[simp] theorem setOut_codes (s : State) (v : List Out) : (s.setOut v).codes = s.codes := rfl

/-! `setInbox` writes `inbox` and nothing else. -/

@[simp] theorem setInbox_busy (s : State) (v : List Event) : (s.setInbox v).busy = s.busy := rfl
@[simp] theorem setInbox_role (s : State) (v : List Event) : (s.setInbox v).role = s.role := rfl
@[simp] theorem setInbox_rxst (s : State) (v : List Event) : (s.setInbox v).rxst = s.rxst := rfl
@[simp] theorem setInbox_txst (s : State) (v : List Event) : (s.setInbox v).txst = s.txst := rfl
@[simp] theorem setInbox_ph (s : State) (v : List Event) : (s.setInbox v).ph = s.ph := rfl
@[simp] theorem setInbox_req (s : State) (v : List Event) : (s.setInbox v).req = s.req := rfl
@[simp] theorem setInbox_mode (s : State) (v : List Event) : (s.setInbox v).mode = s.mode := rfl
@[simp] theorem setInbox_blk (s : State) (v : List Event) : (s.setInbox v).blk = s.blk := rfl
@[simp] theorem setInbox_blkset (s : State) (v : List Event) : (s.setInbox v).blkset = s.blkset := rfl
@[simp] theorem setInbox_retry (s : State) (v : List Event) : (s.setInbox v).retry = s.retry := rfl
@[simp] theorem setInbox_tretry (s : State) (v : List Event) : (s.setInbox v).tretry = s.tretry := rfl
@[simp] theorem setInbox_status (s : State) (v : List Event) : (s.setInbox v).status = s.status := rfl
@[simp] theorem setInbox_psize (s : State) (v : List Event) : (s.setInbox v).psize = s.psize := rfl
@[simp] theorem setInbox_idx (s : State) (v : List Event) : (s.setInbox v).idx = s.idx := rfl
@[simp] theorem setInbox_rblk (s : State) (v : List Event) : (s.setInbox v).rblk = s.rblk := rfl
@[simp] theorem setInbox_rcblk (s : State) (v : List Event) : (s.setInbox v).rcblk = s.rcblk := rfl
@[simp] theorem setInbox_chkbuf (s : State) (v : List Event) : (s.setInbox v).chkbuf = s.chkbuf := rfl
@[simp] theorem setInbox_cidx (s : State) (v : List Event) : (s.setInbox v).cidx = s.cidx := rfl
@[simp] theorem setInbox_chklen (s : State) (v : List Event) : (s.setInbox v).chklen = s.chklen := rfl
@[simp] theorem setInbox_l (s : State) (v : List Event) : (s.setInbox v).l = s.l := rfl
@[simp] theorem setInbox_pbuf (s : State) (v : List Event) : (s.setInbox v).pbuf = s.pbuf := rfl
@[simp] theorem setInbox_n (s : State) (v : List Event) : (s.setInbox v).n = s.n := rfl
@[simp] theorem setInbox_frame (s : State) (v : List Event) : (s.setInbox v).frame = s.frame := rfl
@[simp] theorem setInbox_flen (s : State) (v : List Event) : (s.setInbox v).flen = s.flen := rfl
@[simp] theorem setInbox_result (s : State) (v : List Event) : (s.setInbox v).result = s.result := rfl
@[simp] theorem setInbox_lastError (s : State) (v : List Event) : (s.setInbox v).lastError = s.lastError := rfl
@[simp] theorem setInbox_storageCode (s : State) (v : List Event) : (s.setInbox v).storageCode = s.storageCode := rfl
@[simp] theorem setInbox_bytes (s : State) (v : List Event) : (s.setInbox v).bytes = s.bytes := rfl
@[simp] theorem setInbox_cfgRetryMax (s : State) (v : List Event) : (s.setInbox v).cfgRetryMax = s.cfgRetryMax := rfl
@[simp] theorem setInbox_cfgTxRetryMax (s : State) (v : List Event) : (s.setInbox v).cfgTxRetryMax = s.cfgTxRetryMax := rfl
@[simp] theorem setInbox_cfgRxInitMode (s : State) (v : List Event) : (s.setInbox v).cfgRxInitMode = s.cfgRxInitMode := rfl
@[simp] theorem setInbox_cfgRxText (s : State) (v : List Event) : (s.setInbox v).cfgRxText = s.cfgRxText := rfl
@[simp] theorem setInbox_cfgFirstTagRule (s : State) (v : List Event) : (s.setInbox v).cfgFirstTagRule = s.cfgFirstTagRule := rfl
@[simp] theorem setInbox_faulted (s : State) (v : List Event) : (s.setInbox v).faulted = s.faulted := rfl
@[simp] theorem setInbox_faultReason (s : State) (v : List Event) : (s.setInbox v).faultReason = s.faultReason := rfl
@[simp] theorem setInbox_srcAsked (s : State) (v : List Event) : (s.setInbox v).srcAsked = s.srcAsked := rfl
@[simp] theorem setInbox_out (s : State) (v : List Event) : (s.setInbox v).out = s.out := rfl
@[simp] theorem setInbox_inbox (s : State) (v : List Event) : (s.setInbox v).inbox = v := rfl
@[simp] theorem setInbox_dp (s : State) (v : List Event) : (s.setInbox v).dp = s.dp := rfl
@[simp] theorem setInbox_bytesWidth (s : State) (v : List Event) : (s.setInbox v).bytesWidth = s.bytesWidth := rfl
@[simp] theorem setInbox_codes (s : State) (v : List Event) : (s.setInbox v).codes = s.codes := rfl

/-! `setDp` writes `dp` and nothing else. -/

@[simp] theorem setDp_busy (s : State) (v : DpOut) : (s.setDp v).busy = s.busy := rfl
@[simp] theorem setDp_role (s : State) (v : DpOut) : (s.setDp v).role = s.role := rfl
@[simp] theorem setDp_rxst (s : State) (v : DpOut) : (s.setDp v).rxst = s.rxst := rfl
@[simp] theorem setDp_txst (s : State) (v : DpOut) : (s.setDp v).txst = s.txst := rfl
@[simp] theorem setDp_ph (s : State) (v : DpOut) : (s.setDp v).ph = s.ph := rfl
@[simp] theorem setDp_req (s : State) (v : DpOut) : (s.setDp v).req = s.req := rfl
@[simp] theorem setDp_mode (s : State) (v : DpOut) : (s.setDp v).mode = s.mode := rfl
@[simp] theorem setDp_blk (s : State) (v : DpOut) : (s.setDp v).blk = s.blk := rfl
@[simp] theorem setDp_blkset (s : State) (v : DpOut) : (s.setDp v).blkset = s.blkset := rfl
@[simp] theorem setDp_retry (s : State) (v : DpOut) : (s.setDp v).retry = s.retry := rfl
@[simp] theorem setDp_tretry (s : State) (v : DpOut) : (s.setDp v).tretry = s.tretry := rfl
@[simp] theorem setDp_status (s : State) (v : DpOut) : (s.setDp v).status = s.status := rfl
@[simp] theorem setDp_psize (s : State) (v : DpOut) : (s.setDp v).psize = s.psize := rfl
@[simp] theorem setDp_idx (s : State) (v : DpOut) : (s.setDp v).idx = s.idx := rfl
@[simp] theorem setDp_rblk (s : State) (v : DpOut) : (s.setDp v).rblk = s.rblk := rfl
@[simp] theorem setDp_rcblk (s : State) (v : DpOut) : (s.setDp v).rcblk = s.rcblk := rfl
@[simp] theorem setDp_chkbuf (s : State) (v : DpOut) : (s.setDp v).chkbuf = s.chkbuf := rfl
@[simp] theorem setDp_cidx (s : State) (v : DpOut) : (s.setDp v).cidx = s.cidx := rfl
@[simp] theorem setDp_chklen (s : State) (v : DpOut) : (s.setDp v).chklen = s.chklen := rfl
@[simp] theorem setDp_l (s : State) (v : DpOut) : (s.setDp v).l = s.l := rfl
@[simp] theorem setDp_pbuf (s : State) (v : DpOut) : (s.setDp v).pbuf = s.pbuf := rfl
@[simp] theorem setDp_n (s : State) (v : DpOut) : (s.setDp v).n = s.n := rfl
@[simp] theorem setDp_frame (s : State) (v : DpOut) : (s.setDp v).frame = s.frame := rfl
@[simp] theorem setDp_flen (s : State) (v : DpOut) : (s.setDp v).flen = s.flen := rfl
@[simp] theorem setDp_result (s : State) (v : DpOut) : (s.setDp v).result = s.result := rfl
@[simp] theorem setDp_lastError (s : State) (v : DpOut) : (s.setDp v).lastError = s.lastError := rfl
@[simp] theorem setDp_storageCode (s : State) (v : DpOut) : (s.setDp v).storageCode = s.storageCode := rfl
@[simp] theorem setDp_bytes (s : State) (v : DpOut) : (s.setDp v).bytes = s.bytes := rfl
@[simp] theorem setDp_cfgRetryMax (s : State) (v : DpOut) : (s.setDp v).cfgRetryMax = s.cfgRetryMax := rfl
@[simp] theorem setDp_cfgTxRetryMax (s : State) (v : DpOut) : (s.setDp v).cfgTxRetryMax = s.cfgTxRetryMax := rfl
@[simp] theorem setDp_cfgRxInitMode (s : State) (v : DpOut) : (s.setDp v).cfgRxInitMode = s.cfgRxInitMode := rfl
@[simp] theorem setDp_cfgRxText (s : State) (v : DpOut) : (s.setDp v).cfgRxText = s.cfgRxText := rfl
@[simp] theorem setDp_cfgFirstTagRule (s : State) (v : DpOut) : (s.setDp v).cfgFirstTagRule = s.cfgFirstTagRule := rfl
@[simp] theorem setDp_faulted (s : State) (v : DpOut) : (s.setDp v).faulted = s.faulted := rfl
@[simp] theorem setDp_faultReason (s : State) (v : DpOut) : (s.setDp v).faultReason = s.faultReason := rfl
@[simp] theorem setDp_srcAsked (s : State) (v : DpOut) : (s.setDp v).srcAsked = s.srcAsked := rfl
@[simp] theorem setDp_out (s : State) (v : DpOut) : (s.setDp v).out = s.out := rfl
@[simp] theorem setDp_inbox (s : State) (v : DpOut) : (s.setDp v).inbox = s.inbox := rfl
@[simp] theorem setDp_dp (s : State) (v : DpOut) : (s.setDp v).dp = v := rfl
@[simp] theorem setDp_bytesWidth (s : State) (v : DpOut) : (s.setDp v).bytesWidth = s.bytesWidth := rfl
@[simp] theorem setDp_codes (s : State) (v : DpOut) : (s.setDp v).codes = s.codes := rfl

end Sys2Proof.Machine.State
end

