-- ==== Sys2Proof/Laws/Ops.lean ====
section
/-! SUPPORT. What each shared operation can do, said once: the state changes as record updates, and for the operations
that answer a step, every next state they can answer. -/

namespace Sys2Proof.Machine

/-! ### State changes -/

theorem State.emit_eq (s : State) (b : Byte) : s.emit b = { s with out := s.out ++ [.wr b] } := rfl

theorem State.emitBuf_eq (s : State) (bytes : Bytes) :
    s.emitBuf bytes = { s with out := s.out ++ bytes.map .wr } := rfl

theorem State.emitFlush_eq (s : State) : s.emitFlush = { s with out := s.out ++ [.flush] } := rfl

theorem State.emitAbort_eq (s : State) :
    s.emitAbort = { s with out := s.out ++ [.wr s.codes.can, .wr s.codes.can] } := by
  simp [State.emitAbort, State.emit_eq, List.append_assoc]

theorem State.request_eq (s : State) (q : Request) :
    s.request q = { s with req := some q, srcAsked := s.srcAsked || isSrc q } := rfl

theorem State.addBytes_eq (s : State) (k : Nat) :
    s.addBytes k = { s with bytes := wrapBytes s.bytesWidth (s.bytes + k) } := rfl

theorem State.raise_eq (s : State) (r : FaultReason) :
    s.raise r = { s with faulted := true, faultReason := some r } := rfl

theorem State.awaitHeader_eq (s : State) :
    s.awaitHeader = { s with ph := some .hdr, req := some (.rd .char) } := by
  simp [State.awaitHeader, State.request_eq, State.setPh, isSrc]

theorem State.awaitResponse_eq (s : State) :
    s.awaitResponse = { s with ph := some .resp, req := some (.rd .resp) } := by
  simp [State.awaitResponse, State.request_eq, State.setPh, isSrc]

/-- Everything `terminate` writes (R254): of `RXST` and `TXST` the one that `ROLE` names. -/
theorem State.terminate_eq (s : State) (t : EndState) (code : Result) :
    s.terminate t code =
      { s with
        rxst := if s.role = .rx then rxStateOf t else s.rxst, txst := if s.role = .rx then s.txst else txStateOf t,
        status := some code, result := some code,
        lastError := if code = .ok ∨ code = .endOfTransfer then s.lastError else some code,
        busy := false, ph := some .term, req := none } := by
  by_cases hr : s.role = .rx
  · simp only [State.terminate, State.recordError, State.setEnd, if_pos hr]
    split <;> rfl
  · simp only [State.terminate, State.recordError, State.setEnd, if_neg hr]
    split <;> rfl

/-- R254 while `ROLE` is rx. -/
theorem State.terminate_rx_eq {s : State} (hr : s.role = .rx) (t : EndState) (code : Result) :
    s.terminate t code =
      { s with
        rxst := rxStateOf t, status := some code, result := some code,
        lastError := if code = .ok ∨ code = .endOfTransfer then s.lastError else some code,
        busy := false, ph := some .term, req := none } := by
  rw [State.terminate_eq, if_pos hr, if_pos hr]

/-- R254 while `ROLE` is not rx. -/
theorem State.terminate_tx_eq {s : State} (hr : s.role ≠ .rx) (t : EndState) (code : Result) :
    s.terminate t code =
      { s with
        txst := txStateOf t, status := some code, result := some code,
        lastError := if code = .ok ∨ code = .endOfTransfer then s.lastError else some code,
        busy := false, ph := some .term, req := none } := by
  rw [State.terminate_eq, if_neg hr, if_neg hr]

theorem State.latch_eq (s : State) (cfg : SessionCfg) :
    s.latch cfg =
      { s with
        cfgRetryMax := some cfg.retryMax, cfgTxRetryMax := some cfg.txRetryMax,
        cfgRxInitMode := some cfg.rxInitMode, cfgRxText := some cfg.rxTextMode,
        cfgFirstTagRule := some cfg.firstTagRule } := rfl

theorem State.rxStart_eq (s : State) :
    s.rxStart =
      { s with
        role := .rx, busy := true, result := none, status := some .ok, bytes := 0, storageCode := none,
        rxst := some .awaitStart, mode := s.cfgRxInitMode, retry := s.cfgRetryMax, blkset := some false,
        ph := some .settle, req := some .delay,
        blk := none, psize := none, idx := none, rblk := none, rcblk := none, chkbuf := [], cidx := none,
        chklen := none, l := none, pbuf := [] } := by
  simp [State.rxStart, State.request_eq, State.openSession, State.clearRx, isSrc, State.setRole, State.setBusy,
    State.setResult, State.setStatus, State.setBytes, State.setStorageCode, State.setBlk, State.setPsize,
    State.setIdx, State.setRblk, State.setRcblk, State.setChkbuf, State.setCidx, State.setChklen, State.setL,
    State.setPbuf, State.setRxst, State.setMode, State.setRetry, State.setBlkset, State.setPh]

theorem State.txStart_eq (s : State) :
    s.txStart =
      { s with
        role := .tx, busy := true, result := none, status := some .ok, bytes := 0, storageCode := none,
        txst := some .awaitHandshake, out := s.out ++ [.flush], ph := some .hs, req := some (.rd .hs),
        mode := none, blk := none, tretry := none, n := none, frame := none, flen := none, srcAsked := false } := by
  simp [State.txStart, State.request_eq, State.openSession, State.clearTx, isSrc, State.setRole, State.setBusy,
    State.setResult, State.setStatus, State.setBytes, State.setStorageCode, State.setBlk, State.setMode,
    State.setTretry, State.setN, State.setFrame, State.setFlen, State.setSrcAsked, State.setTxst,
    State.emitFlush_eq, State.setPh]

/-! ### The guards -/

@[simp] theorem live_of_running {s : State} (h : s.faulted = false) (k : Step) : live s k = k := by
  simp [live, h]

@[simp] theorem live_of_faulted {s : State} (h : s.faulted = true) (k : Step) :
    live s k = .fault .engineFaulted := by
  simp [live, h]

theorem live_next {s t : State} {k : Step} : live s k = .next t ↔ s.faulted = false ∧ k = .next t := by
  cases h : s.faulted <;> simp [live, h]

@[simp] theorem State.need_some {α : Type} (s : State) (v : α) (k : α → Step) : s.need (some v) k = k v := rfl

@[simp] theorem State.need_none {α : Type} (s : State) (k : α → Step) :
    s.need none k = .next (s.raise .unwritten) := rfl

theorem State.need_next {α : Type} {s t : State} {r : Option α} {k : α → Step} :
    s.need r k = .next t ↔ (∃ v, r = some v ∧ k v = .next t) ∨ (r = none ∧ t = s.raise .unwritten) := by
  cases r <;> simp [eq_comm]

theorem State.needSlice_next {s t : State} {size len : Nat} {m : List Host.Cell} {k : Bytes → Step} :
    s.needSlice size m len k = .next t ↔
      len ≤ size ∧ ((∃ bs, Memory.slice m 0 len = some bs ∧ k bs = .next t) ∨
        (Memory.slice m 0 len = none ∧ t = s.raise .unwritten)) := by
  by_cases h : len ≤ size <;> simp [State.needSlice, h, State.need_next]

theorem storeByte_next {size a : Nat} {m : List Host.Cell} {b : Byte} {k : List Host.Cell → Step} {t : State} :
    storeByte size m a b k = .next t ↔ a < size ∧ k (Memory.write m a b) = .next t := by
  by_cases h : a < size <;> simp [storeByte, h]

theorem start_next {cfg : SessionCfg} {f : State → State} {s t : State} :
    start cfg f s = .next t ↔
      (s.busy = true ∧ t = s.raise .startWhileBusy) ∨
      (s.busy = false ∧ inBounds cfg = false ∧ t = s.raise .badConfig) ∨
      (s.busy = false ∧ inBounds cfg = true ∧ t = f (s.latch cfg)) := by
  cases hb : s.busy <;> cases hc : inBounds cfg <;> simp [start, hb, hc, eq_comm]

/-! ### The receiver's procedures -/

theorem fallbackOk_next {cause : Result} {s t : State} {k : Bool → Step} (h : fallbackOk cause s k = .next t) :
    (k true = .next t ∧ (cause = .timeout ∨ cause = .framingError) ∧ s.blkset = some false ∧ s.mode = some .crc16) ∨
    k false = .next t ∨ ((s.blkset = none ∨ s.mode = none) ∧ t = s.raise .unwritten) := by
  unfold fallbackOk at h
  split at h
  · rename_i hc
    rcases State.need_next.1 h with ⟨set, hset, h⟩ | ⟨hn, rfl⟩
    · cases set
      · rcases State.need_next.1 h with ⟨m, hm, h⟩ | ⟨hn, rfl⟩
        · cases m
          · exact .inr (.inl (by simpa using h))
          · exact .inl ⟨by simpa using h, hc, hset, hm⟩
        · exact .inr (.inr ⟨.inr hn, rfl⟩)
      · exact .inr (.inl (by simpa using h))
    · exact .inr (.inr ⟨.inl hn, rfl⟩)
  · exact .inr (.inl h)

theorem fallback_next {s t : State} (h : fallback s = .next t) :
    (∃ k, s.cfgRetryMax = some k ∧
      t = { s with
        mode := some .checksum, retry := some k, out := s.out ++ [.wr s.codes.nak], ph := some .hdr,
        req := some (.rd .char) }) ∨
    (s.cfgRetryMax = none ∧ t = (s.setMode (some .checksum)).raise .unwritten) := by
  rcases State.need_next.1 h with ⟨k, hk, h⟩ | ⟨hn, rfl⟩
  · refine .inl ⟨k, hk, ?_⟩
    simp only [Host.Outcome.next.injEq] at h
    rw [← h, State.awaitHeader_eq]
    rfl
  · exact .inr ⟨hn, rfl⟩

theorem retryResponse_next {cause : Result} {s t : State} (h : retryResponse cause s = .next t) :
    (∃ b, (b = s.codes.nak ∨ (cause ≠ .crcError ∧ s.blkset = some false ∧ ∃ m, s.mode = some m ∧ b = startByte s.codes m)) ∧
      t = { s with out := s.out ++ [.wr b], ph := some .hdr, req := some (.rd .char) }) ∨
    ((s.blkset = none ∨ s.mode = none) ∧ t = s.raise .unwritten) := by
  have fin : ∀ {b : Byte}, Host.Outcome.next (φ := Fault) (ρ := Refusal) (s.emit b).awaitHeader = .next t →
      t = { s with out := s.out ++ [.wr b], ph := some .hdr, req := some (.rd .char) } := by
    intro b h
    simp only [Host.Outcome.next.injEq] at h
    rw [← h, State.awaitHeader_eq]
    rfl
  unfold retryResponse at h
  split at h
  · exact .inl ⟨_, .inl rfl, fin h⟩
  · rename_i hc
    rcases State.need_next.1 h with ⟨set, hset, h⟩ | ⟨hn, rfl⟩
    · cases set
      · rcases State.need_next.1 h with ⟨m, hm, h⟩ | ⟨hn, rfl⟩
        · exact .inl ⟨_, .inr ⟨hc, hset, m, hm, rfl⟩, fin h⟩
        · exact .inr ⟨.inr hn, rfl⟩
      · exact .inl ⟨_, .inl rfl, fin h⟩
    · exact .inr ⟨.inl hn, rfl⟩

/-- Every next state of FAIL_ATTEMPT: FALLBACK, EXHAUST, RETRY_RESPONSE, or the fault of a register without a value. -/
theorem failAttempt_next {cause : Result} {s t : State} (h : failAttempt cause s = .next t) :
    (∃ r k, s.retry = some r ∧ r ≤ 1 ∧ s.cfgRetryMax = some k ∧ (cause = .timeout ∨ cause = .framingError) ∧
      s.blkset = some false ∧ s.mode = some .crc16 ∧
      t = { s with
        status := some cause, mode := some .checksum, retry := some k, out := s.out ++ [.wr s.codes.nak],
        ph := some .hdr, req := some (.rd .char) }) ∨
    (∃ r, s.retry = some r ∧ r ≤ 1 ∧
      t = ((s.setStatus (some cause)).setRetry (some (r - 1))).terminate .failed cause) ∨
    (∃ r b, s.retry = some r ∧ 1 < r ∧
      (b = s.codes.nak ∨ (cause ≠ .crcError ∧ s.blkset = some false ∧ ∃ m, s.mode = some m ∧ b = startByte s.codes m)) ∧
      t = { s with
        status := some cause, retry := some (r - 1), out := s.out ++ [.wr b], ph := some .hdr,
        req := some (.rd .char) }) ∨
    ((s.retry = none ∨ s.blkset = none ∨ s.mode = none ∨ s.cfgRetryMax = none) ∧ t.faulted = true ∧
      t.faultReason = some .unwritten ∧ t.pbuf = s.pbuf ∧ t.chkbuf = s.chkbuf) := by
  rcases State.need_next.1 h with ⟨r, hr, h⟩ | ⟨hn, rfl⟩
  · unfold afterFailure at h
    split at h
    · rename_i h0
      rcases fallbackOk_next h with ⟨h, hc, hs, hm⟩ | h | ⟨hn, rfl⟩
      · simp only [State.setRetry_blkset, State.setStatus_blkset, State.setRetry_mode, State.setStatus_mode] at hs hm
        rcases fallback_next h with ⟨k, hk, rfl⟩ | ⟨hn, rfl⟩
        · simp only [State.setRetry_cfgRetryMax, State.setStatus_cfgRetryMax] at hk
          exact .inl ⟨r, k, hr, by omega, hk, hc, hs, hm, rfl⟩
        · simp only [State.setRetry_cfgRetryMax, State.setStatus_cfgRetryMax] at hn
          exact .inr (.inr (.inr ⟨.inr (.inr (.inr hn)), by simp [State.raise]⟩))
      · simp only [exhaust, Host.Outcome.next.injEq, Bool.false_eq_true, if_false] at h
        exact .inr (.inl ⟨r, hr, by omega, h.symm⟩)
      · simp only [State.setRetry_blkset, State.setStatus_blkset, State.setRetry_mode, State.setStatus_mode] at hn
        exact .inr (.inr (.inr ⟨by tauto, by simp [State.raise]⟩))
    · rename_i h0
      rcases retryResponse_next h with ⟨b, hb, rfl⟩ | ⟨hn, rfl⟩
      · simp only [State.setRetry_blkset, State.setStatus_blkset, State.setRetry_mode, State.setStatus_mode] at hb
        exact .inr (.inr (.inl ⟨r, b, hr, by omega, hb, rfl⟩))
      · simp only [State.setRetry_blkset, State.setStatus_blkset, State.setRetry_mode, State.setStatus_mode] at hn
        exact .inr (.inr (.inr ⟨by tauto, by simp [State.raise]⟩))
  · exact .inr (.inr (.inr ⟨.inl hn, by simp [State.raise], by simp [State.raise], by simp [State.raise],
      by simp [State.raise]⟩))

/-- Every next state of ACCEPT: the sink request, or the fault of a register or byte without a value. -/
theorem accept_next {s t : State} (h : accept s = .next t) :
    (∃ r b text p payload, s.cfgRetryMax = some r ∧ s.rblk = some b ∧ s.cfgRxText = some text ∧ s.psize = some p ∧
      p ≤ Config.pbufSize ∧ Memory.slice s.pbuf 0 p = some payload ∧
      t = { s with
        status := some .ok, retry := some r, blk := some b, blkset := some true, rxst := some .receiving,
        l := some (if text then trim payload else p), ph := some .sink,
        req := some (.sink b (payload.take (if text then trim payload else p))) }) ∨
    ((s.cfgRetryMax = none ∨ s.rblk = none ∨ s.cfgRxText = none ∨
        (∀ p, s.psize = some p → Memory.slice s.pbuf 0 p = none)) ∧
      t.faulted = true ∧ t.faultReason = some .unwritten ∧ t.pbuf = s.pbuf ∧ t.chkbuf = s.chkbuf) := by
  rcases State.need_next.1 h with ⟨r, hr, h⟩ | ⟨hn, rfl⟩
  · rcases State.need_next.1 h with ⟨b, hb, h⟩ | ⟨hn, rfl⟩
    · unfold handToSink at h
      rcases State.need_next.1 h with ⟨text, ht, h⟩ | ⟨hn, rfl⟩
      · rcases State.need_next.1 h with ⟨p, hp, h⟩ | ⟨hn, rfl⟩
        · rcases State.needSlice_next.1 h with ⟨hle, ⟨payload, hs, h⟩ | ⟨hn, rfl⟩⟩
          · simp only [Host.Outcome.next.injEq] at h
            simp at ht hp hs
            refine .inl ⟨r, b, text, p, payload, hr, hb, ht, hp, hle, hs, ?_⟩
            rw [← h, State.request_eq]
            simp [isSrc, State.setL, State.setPh, State.setRxst, State.setBlkset, State.setBlk, State.setRetry,
              State.setStatus]
          · simp at hp hn
            refine .inr ⟨.inr (.inr (.inr ?_)), by simp [State.raise]⟩
            intro q hq
            obtain rfl : p = q := by simpa [hp] using hq
            exact hn
        · simp at hn
          exact .inr ⟨.inr (.inr (.inr (by simp [hn]))), by simp [State.raise]⟩
      · simp at hn
        exact .inr ⟨.inr (.inr (.inl hn)), by simp [State.raise]⟩
    · exact .inr ⟨.inr (.inl hn), by simp [State.raise]⟩
  · exact .inr ⟨.inl hn, by simp [State.raise]⟩

/-- Every next state of EVALUATE: a failed attempt, an accepted packet, or the fault of a register or byte without a
value. -/
theorem evaluate_next {s t : State} (h : evaluate s = .next t) :
    failAttempt .crcError s = .next t ∨
    (∃ b c p payload m k chk, s.rblk = some b ∧ s.rcblk = some c ∧ blkchk b c = true ∧ s.psize = some p ∧
      Memory.slice s.pbuf 0 p = some payload ∧ s.mode = some m ∧ s.chklen = some k ∧
      Memory.slice s.chkbuf 0 k = some chk ∧ verify payload m chk ≠ .crcError ∧ accept s = .next t) ∨
    t = s.raise .unwritten := by
  rcases State.need_next.1 h with ⟨b, hb, h⟩ | ⟨-, rfl⟩
  · rcases State.need_next.1 h with ⟨c, hc, h⟩ | ⟨-, rfl⟩
    · split at h
      · rename_i hbc
        rcases State.need_next.1 h with ⟨p, hp, h⟩ | ⟨-, rfl⟩
        · rcases State.needSlice_next.1 h with ⟨-, ⟨payload, hs, h⟩ | ⟨-, rfl⟩⟩
          · rcases State.need_next.1 h with ⟨m, hm, h⟩ | ⟨-, rfl⟩
            · rcases State.need_next.1 h with ⟨k, hk, h⟩ | ⟨-, rfl⟩
              · rcases State.needSlice_next.1 h with ⟨-, ⟨chk, hchk, h⟩ | ⟨-, rfl⟩⟩
                · split at h
                  · exact .inl h
                  · rename_i hv
                    exact .inr (.inl ⟨b, c, p, payload, m, k, chk, hb, hc, hbc, hp, hs, hm, hk, hchk, hv, h⟩)
                · exact .inr (.inr rfl)
              · exact .inr (.inr rfl)
            · exact .inr (.inr rfl)
          · exact .inr (.inr rfl)
        · exact .inr (.inr rfl)
      · exact .inl h
    · exact .inr (.inr rfl)
  · exact .inr (.inr rfl)

/-! ### The sender's procedures -/

theorem blockStart_next {s t : State} (h : blockStart s = .next t) :
    (∃ b rule, s.blk = some b ∧ s.cfgFirstTagRule = some rule ∧
      t = { s with
        ph := some .src, req := some (.src Config.maxChunk (firstTagBy s.srcAsked b rule)), srcAsked := true }) ∨
    ((s.blk = none ∨ s.cfgFirstTagRule = none) ∧ t = (s.setPh (some .src)).raise .unwritten) := by
  rcases State.need_next.1 h with ⟨b, hb, h⟩ | ⟨hn, rfl⟩
  · rcases State.need_next.1 h with ⟨rule, hr, h⟩ | ⟨hn, rfl⟩
    · simp only [Host.Outcome.next.injEq] at h
      refine .inl ⟨b, rule, hb, hr, ?_⟩
      rw [← h, State.request_eq]
      simp [isSrc, State.setPh]
    · exact .inr ⟨.inr hn, rfl⟩
  · exact .inr ⟨.inl hn, rfl⟩

theorem sendFrame_next {s t : State} (h : sendFrame s = .next t) :
    (∃ f len, s.frame = some f ∧ s.flen = some len ∧ len ≤ f.length ∧
      t = { s with out := s.out ++ (f.take len).map .wr, ph := some .resp, req := some (.rd .resp) }) ∨
    ((s.frame = none ∨ s.flen = none ∨ ∃ f len, s.frame = some f ∧ s.flen = some len ∧ f.length < len) ∧
      t = s.raise .unwritten) := by
  rcases State.need_next.1 h with ⟨f, hf, h⟩ | ⟨hn, rfl⟩
  · rcases State.need_next.1 h with ⟨len, hl, h⟩ | ⟨hn, rfl⟩
    · split at h
      · rename_i hle
        simp only [Host.Outcome.next.injEq] at h
        refine .inl ⟨f, len, hf, hl, hle, ?_⟩
        rw [← h, State.awaitResponse_eq]
        rfl
      · rename_i hle
        simp only [Host.Outcome.next.injEq] at h
        exact .inr ⟨.inr (.inr ⟨f, len, hf, hl, by omega⟩), h.symm⟩
    · exact .inr ⟨.inr (.inl hn), rfl⟩
  · exact .inr ⟨.inl hn, rfl⟩

/-- Every next state of TX_FAIL_ATTEMPT: the session abandoned, the frame sent again, or the fault of a register without
a value. -/
theorem txFailAttempt_next {cause : Result} {s t : State} (h : txFailAttempt cause s = .next t) :
    (∃ r, s.tretry = some r ∧ r ≤ 1 ∧
      t = ((s.setStatus (some cause)).setTretry (some (r - 1))).terminate .failed .timeout) ∨
    (∃ r, s.tretry = some r ∧ 1 < r ∧ sendFrame ((s.setStatus (some cause)).setTretry (some (r - 1))) = .next t) ∨
    (s.tretry = none ∧ t = (s.setStatus (some cause)).raise .unwritten) := by
  rcases State.need_next.1 h with ⟨r, hr, h⟩ | ⟨hn, rfl⟩
  · dsimp only at h
    split at h
    · simp only [Host.Outcome.next.injEq] at h
      exact .inl ⟨r, hr, by omega, h.symm⟩
    · exact .inr (.inl ⟨r, hr, by omega, h⟩)
  · exact .inr (.inr ⟨hn, rfl⟩)

/-- Every next state of the framing of a chunk: the frame sent, or the fault of a register without a value. -/
theorem frameChunk_next {hdr : Byte} {p n : Nat} {bytes : Bytes} {s t : State}
    (h : frameChunk hdr p n bytes s = .next t) :
    (∃ b m k, s.blk = some b ∧ s.mode = some m ∧ s.cfgTxRetryMax = some k ∧
      sendFrame
        ((((s.setN (some n)).setFrame (some (encodeFrame hdr b (pad bytes p) m))).setFlen
          (some (3 + p + checkLen m))).setTretry (some k)) = .next t) ∨
    ((s.blk = none ∨ s.mode = none ∨ s.cfgTxRetryMax = none) ∧ t.faulted = true ∧
      t.faultReason = some .unwritten ∧ t.pbuf = s.pbuf ∧ t.chkbuf = s.chkbuf) := by
  rcases State.need_next.1 h with ⟨b, hb, h⟩ | ⟨hn, rfl⟩
  · rcases State.need_next.1 h with ⟨m, hm, h⟩ | ⟨hn, rfl⟩
    · rcases State.need_next.1 h with ⟨k, hk, h⟩ | ⟨hn, rfl⟩
      · simp at hk
        exact .inl ⟨b, m, k, hb, hm, hk, h⟩
      · simp at hn
        exact .inr ⟨.inr (.inr hn), by simp [State.raise]⟩
    · exact .inr ⟨.inr (.inl hn), by simp [State.raise]⟩
  · exact .inr ⟨.inl hn, by simp [State.raise]⟩

end Sys2Proof.Machine
end

