-- ==== Sys2Proof/Laws/PerInstr.lean ====
section
/-! SUPPORT. Statements for all instructions, as syntax, one lemma per constructor. The family `Encoding` says that what
the encoder writes for a well-formed instruction the decoder reads back as that instruction. -/

namespace Sys2Proof.Laws.Encoding

open Sys2Proof

/-- Every encoding of a well-formed instruction decodes to it, operands and all. -/
def Statement (i : Instr) : Prop :=
  ∀ codes : Codes, codes.distinct = true → wellFormed codes i = true → ∀ e ∈ encode codes i, decode codes e = .ok i

/-- An instruction with the one encoding `e` meets the statement if `e` decodes to it. -/
theorem of_one {i : Instr} {e : Codes → Encoded} (he : ∀ codes, encode codes i = [e codes])
    (h : ∀ codes : Codes, codes.distinct = true → wellFormed codes i = true → decode codes (e codes) = .ok i) :
    Statement i := by
  intro codes hc hw e' h'
  rw [he, List.mem_singleton] at h'
  rw [h']
  exact h codes hc hw

/-- An instruction with no encoding meets the statement. -/
theorem of_none {i : Instr} (he : ∀ codes, encode codes i = []) : Statement i := by
  intro codes _ _ e' h'
  rw [he] at h'
  cases h'

theorem rxHdrSoh : Statement .rxHdrSoh := of_one (fun _ => rfl) fun _ _ _ => by
  simp [decode, decodeAnswer, decodeHeader]

theorem rxHdrStx : Statement .rxHdrStx := of_one (fun _ => rfl) fun _ hc _ => by
  simp [decode, decodeAnswer, decodeHeader, eq_comm, Codes.ne_of_distinct hc]

theorem rxHdrEot : Statement .rxHdrEot := of_one (fun _ => rfl) fun _ hc _ => by
  simp [decode, decodeAnswer, decodeHeader, eq_comm, Codes.ne_of_distinct hc]

theorem rxHdrCan : Statement .rxHdrCan := of_one (fun _ => rfl) fun _ hc _ => by
  simp [decode, decodeAnswer, decodeHeader, eq_comm, Codes.ne_of_distinct hc]

theorem rxHdrOther (b : Byte) : Statement (.rxHdrOther b) := of_one (fun _ => rfl) fun _ _ h => by
  simp only [wellFormed, Bool.and_eq_true, bne_iff_ne] at h
  simp [decode, decodeAnswer, decodeHeader, h]

theorem rxHdrTimeout : Statement .rxHdrTimeout := of_one (fun _ => rfl) fun _ _ _ => rfl

theorem rxBnum (blk : Byte) : Statement (.rxBnum blk) := of_one (fun _ => rfl) fun _ _ _ => rfl

theorem rxBcmp (cblk : Byte) : Statement (.rxBcmp cblk) := of_one (fun _ => rfl) fun _ _ _ => rfl

theorem rxData (d : Byte) : Statement (.rxData d) := of_one (fun _ => rfl) fun _ _ _ => rfl

theorem rxChk (v : Byte) : Statement (.rxChk v) := of_one (fun _ => rfl) fun _ _ _ => rfl

theorem rxShortRead : Statement .rxShortRead := by
  intro _ _ _ e h
  simp only [encode, List.mem_cons, List.not_mem_nil, or_false] at h
  rcases h with rfl | rfl | rfl | rfl <;> rfl

theorem rxSinkOk : Statement .rxSinkOk := of_one (fun _ => rfl) fun _ _ _ => rfl

theorem rxSinkFail (code : StorageCode) : Statement (.rxSinkFail code) := of_one (fun _ => rfl) fun _ _ _ => rfl

theorem rxSettleElapsed : Statement .rxSettleElapsed := of_one (fun _ => rfl) fun _ _ _ => rfl

theorem rxEmitCrq : Statement .rxEmitCrq := of_one (fun _ => rfl) fun _ _ _ => by
  simp [decode, decodeRxEmit]

theorem rxEmitNak : Statement .rxEmitNak := of_one (fun _ => rfl) fun _ hc _ => by
  simp [decode, decodeRxEmit, Codes.ne_of_distinct hc]

theorem rxEmitAck : Statement .rxEmitAck := of_one (fun _ => rfl) fun _ hc _ => by
  simp [decode, decodeRxEmit, Codes.ne_of_distinct hc]

theorem rxEmitAbort : Statement .rxEmitAbort := of_one (fun _ => rfl) fun _ hc _ => by
  simp [decode, decodeRxEmit, eq_comm, Codes.ne_of_distinct hc]

theorem txHsCrq : Statement .txHsCrq := of_one (fun _ => rfl) fun _ _ _ => by
  simp [decode, decodeAnswer, decodeHandshake]

theorem txHsNak : Statement .txHsNak := of_one (fun _ => rfl) fun _ hc _ => by
  simp [decode, decodeAnswer, decodeHandshake, Codes.ne_of_distinct hc]

theorem txHsOther (b : Byte) : Statement (.txHsOther b) := of_one (fun _ => rfl) fun _ _ h => by
  simp only [wellFormed, Bool.and_eq_true, bne_iff_ne] at h
  simp [decode, decodeAnswer, decodeHandshake, h]

theorem txHsTimeout : Statement .txHsTimeout := of_one (fun _ => rfl) fun _ _ _ => rfl

theorem txSrcEof : Statement .txSrcEof := of_one (fun _ => rfl) fun _ _ _ => rfl

theorem txFrameSoh (n : Nat) (bytes : Bytes) : Statement (.txFrameSoh n bytes) := of_one (fun _ => rfl) fun _ _ h => by
  simp only [wellFormed, Bool.and_eq_true, decide_eq_true_eq, beq_iff_eq] at h
  simp only [Config.sohSize] at h
  have h1 : n ≤ 1024 := by omega
  have h2 : n ≠ 0 := by omega
  simp [decode, decodeAnswer, decodeChunk, Config.maxChunk, Config.sohSize, h1, h2, h]

theorem txFrameStx (n : Nat) (bytes : Bytes) : Statement (.txFrameStx n bytes) := of_one (fun _ => rfl) fun _ _ h => by
  simp only [wellFormed, Bool.and_eq_true, decide_eq_true_eq, beq_iff_eq] at h
  simp only [Config.sohSize, Config.stxSize] at h
  have h1 : ¬ (1024 < n ∨ bytes.length ≠ n) := by omega
  have h2 : n ≠ 0 := by omega
  have h3 : ¬ n ≤ 128 := by omega
  simp [decode, decodeAnswer, decodeChunk, Config.maxChunk, Config.sohSize, h1, h2, h3]

theorem txSrcContract (n : Nat) (bytes : Bytes) : Statement (.txSrcContract n bytes) := of_one (fun _ => rfl) fun _ _ h => by
  simp only [wellFormed, Bool.or_eq_true, decide_eq_true_eq, bne_iff_ne] at h
  simp [decode, decodeAnswer, decodeChunk, h]

theorem txSrcFail (code : StorageCode) : Statement (.txSrcFail code) := of_one (fun _ => rfl) fun _ _ _ => rfl

theorem txRespAck : Statement .txRespAck := of_one (fun _ => rfl) fun _ _ _ => by
  simp [decode, decodeAnswer, decodeResponse]

theorem txRespCan : Statement .txRespCan := of_one (fun _ => rfl) fun _ hc _ => by
  simp [decode, decodeAnswer, decodeResponse, eq_comm, Codes.ne_of_distinct hc]

theorem txRespOther (r : Reply) : Statement (.txRespOther r) := of_one (fun _ => rfl) fun _ _ h => by
  cases r with
  | timeout => rfl
  | byte b =>
    simp only [wellFormed, Bool.and_eq_true, bne_iff_ne] at h
    simp [decode, decodeAnswer, Reply.toAnswer, decodeResponse, h]

theorem txRespCanCan : Statement .txRespCanCan := of_one (fun _ => rfl) fun _ _ _ => by
  simp [decode, decodeAnswer, decodeResponseCan]

theorem txRespCanOther (r : Reply) : Statement (.txRespCanOther r) := of_one (fun _ => rfl) fun _ _ h => by
  cases r with
  | timeout => rfl
  | byte b =>
    simp only [wellFormed, bne_iff_ne] at h
    simp [decode, decodeAnswer, Reply.toAnswer, decodeResponseCan, h]

theorem txEotAck : Statement .txEotAck := of_one (fun _ => rfl) fun _ _ _ => by
  simp [decode, decodeAnswer, decodeEot]

theorem txEotCan : Statement .txEotCan := of_one (fun _ => rfl) fun _ hc _ => by
  simp [decode, decodeAnswer, decodeEot, eq_comm, Codes.ne_of_distinct hc]

theorem txEotTimeout : Statement .txEotTimeout := of_one (fun _ => rfl) fun _ _ _ => rfl

theorem txEotOther (b : Byte) : Statement (.txEotOther b) := of_one (fun _ => rfl) fun _ _ h => by
  simp only [wellFormed, Bool.and_eq_true, bne_iff_ne] at h
  simp [decode, decodeAnswer, decodeEot, h]

theorem txEotCanCan : Statement .txEotCanCan := of_one (fun _ => rfl) fun _ _ _ => by
  simp [decode, decodeAnswer, decodeEotCan]

theorem txEotCanOther (r : Reply) : Statement (.txEotCanOther r) := of_one (fun _ => rfl) fun _ _ h => by
  cases r with
  | timeout => rfl
  | byte b =>
    simp only [wellFormed, bne_iff_ne] at h
    simp [decode, decodeAnswer, Reply.toAnswer, decodeEotCan, h]

theorem txEmitEot : Statement .txEmitEot := of_one (fun _ => rfl) fun _ _ _ => by
  simp [decode, decodeTxEmit]

theorem txEmitAbort : Statement .txEmitAbort := of_one (fun _ => rfl) fun _ hc _ => by
  simp [decode, decodeTxEmit, eq_comm, Codes.ne_of_distinct hc]

theorem txEmitFlush : Statement .txEmitFlush := of_one (fun _ => rfl) fun _ _ _ => rfl

theorem hostStartRx (cfg : SessionCfg) : Statement (.hostStartRx cfg) := of_one (fun _ => rfl) fun _ _ _ => rfl

theorem hostStartTx (cfg : SessionCfg) : Statement (.hostStartTx cfg) := of_one (fun _ => rfl) fun _ _ _ => rfl

theorem hostRd (kind : RdKind) : Statement (.hostRd kind) := of_one (fun _ => rfl) fun _ _ _ => rfl

theorem hostWr (b : Byte) : Statement (.hostWr b) := of_one (fun _ => rfl) fun _ _ _ => rfl

theorem hostWrbuf (bytes : Bytes) : Statement (.hostWrbuf bytes) := of_one (fun _ => rfl) fun _ _ _ => rfl

theorem hostFlush : Statement .hostFlush := of_one (fun _ => rfl) fun _ _ _ => rfl

theorem hostDelay : Statement .hostDelay := of_one (fun _ => rfl) fun _ _ _ => rfl

theorem hostSink (blk : Byte) (bytes : Bytes) : Statement (.hostSink blk bytes) := of_one (fun _ => rfl) fun _ _ h => by
  simp only [wellFormed, decide_eq_true_eq] at h
  simp [decode, decodeRequest, h]

theorem hostSrc (max : Nat) (first : Bool) : Statement (.hostSrc max first) := of_one (fun _ => rfl) fun _ _ h => by
  simp only [wellFormed, beq_iff_eq] at h
  simp [decode, decodeRequest, h]

theorem crc16Update (crc : Word) (b : Byte) : Statement (.crc16Update crc b) := of_none fun _ => rfl

theorem crc16 (bytes : Bytes) (seed : Word) : Statement (.crc16 bytes seed) := of_none fun _ => rfl

theorem cksum (bytes : Bytes) : Statement (.cksum bytes) := of_none fun _ => rfl

theorem inferSize (header : Byte) : Statement (.inferSize header) := of_none fun _ => rfl

theorem checkLen (mode : Mode) : Statement (.checkLen mode) := of_none fun _ => rfl

theorem chkBytes (payload : Bytes) (mode : Mode) : Statement (.chkBytes payload mode) := of_none fun _ => rfl

theorem verify (payload : Bytes) (mode : Mode) (trailing : Bytes) : Statement (.verify payload mode trailing) := of_none fun _ => rfl

theorem blkchk (b c : Byte) : Statement (.blkchk b c) := of_none fun _ => rfl

theorem pad (data : Bytes) (p : Nat) : Statement (.pad data p) := of_none fun _ => rfl

theorem encodeFrame (hdr b : Byte) (payload : Bytes) (mode : Mode) : Statement (.encodeFrame hdr b payload mode) := of_none fun _ => rfl

theorem sizeSelect (n : Fin 1025) : Statement (.sizeSelect n) := of_none fun _ => rfl

theorem trim (payload : Bytes) : Statement (.trim payload) := of_none fun _ => rfl

theorem startByte (mode : Mode) : Statement (.startByte mode) := of_none fun _ => rfl

theorem firstTag (blk : Byte) : Statement (.firstTag blk) := of_none fun _ => rfl

end Sys2Proof.Laws.Encoding
end

