-- ==== Sys2Proof/Laws/Rename.lean ====
section
/-! SUPPORT. What the renaming of storage codes does: every register but STORAGE_CODE reads as before, every register
write commutes with it, and so do the reads that can fault. -/

namespace Sys2Proof.Safety

open Sys2Proof.Machine

variable (f : StorageCode → StorageCode)

/-! The registers of a renamed state. -/

@[simp] theorem renameState_busy (s : State) : (renameState f s).busy = s.busy := rfl
@[simp] theorem renameState_role (s : State) : (renameState f s).role = s.role := rfl
@[simp] theorem renameState_rxst (s : State) : (renameState f s).rxst = s.rxst := rfl
@[simp] theorem renameState_txst (s : State) : (renameState f s).txst = s.txst := rfl
@[simp] theorem renameState_ph (s : State) : (renameState f s).ph = s.ph := rfl
@[simp] theorem renameState_req (s : State) : (renameState f s).req = s.req := rfl
@[simp] theorem renameState_mode (s : State) : (renameState f s).mode = s.mode := rfl
@[simp] theorem renameState_blk (s : State) : (renameState f s).blk = s.blk := rfl
@[simp] theorem renameState_blkset (s : State) : (renameState f s).blkset = s.blkset := rfl
@[simp] theorem renameState_retry (s : State) : (renameState f s).retry = s.retry := rfl
@[simp] theorem renameState_tretry (s : State) : (renameState f s).tretry = s.tretry := rfl
@[simp] theorem renameState_status (s : State) : (renameState f s).status = s.status := rfl
@[simp] theorem renameState_psize (s : State) : (renameState f s).psize = s.psize := rfl
@[simp] theorem renameState_idx (s : State) : (renameState f s).idx = s.idx := rfl
@[simp] theorem renameState_rblk (s : State) : (renameState f s).rblk = s.rblk := rfl
@[simp] theorem renameState_rcblk (s : State) : (renameState f s).rcblk = s.rcblk := rfl
@[simp] theorem renameState_chkbuf (s : State) : (renameState f s).chkbuf = s.chkbuf := rfl
@[simp] theorem renameState_cidx (s : State) : (renameState f s).cidx = s.cidx := rfl
@[simp] theorem renameState_chklen (s : State) : (renameState f s).chklen = s.chklen := rfl
@[simp] theorem renameState_l (s : State) : (renameState f s).l = s.l := rfl
@[simp] theorem renameState_pbuf (s : State) : (renameState f s).pbuf = s.pbuf := rfl
@[simp] theorem renameState_n (s : State) : (renameState f s).n = s.n := rfl
@[simp] theorem renameState_frame (s : State) : (renameState f s).frame = s.frame := rfl
@[simp] theorem renameState_flen (s : State) : (renameState f s).flen = s.flen := rfl
@[simp] theorem renameState_result (s : State) : (renameState f s).result = s.result := rfl
@[simp] theorem renameState_lastError (s : State) : (renameState f s).lastError = s.lastError := rfl
@[simp] theorem renameState_storageCode (s : State) : (renameState f s).storageCode = s.storageCode.map f := rfl
@[simp] theorem renameState_bytes (s : State) : (renameState f s).bytes = s.bytes := rfl
@[simp] theorem renameState_cfgRetryMax (s : State) : (renameState f s).cfgRetryMax = s.cfgRetryMax := rfl
@[simp] theorem renameState_cfgTxRetryMax (s : State) : (renameState f s).cfgTxRetryMax = s.cfgTxRetryMax := rfl
@[simp] theorem renameState_cfgRxInitMode (s : State) : (renameState f s).cfgRxInitMode = s.cfgRxInitMode := rfl
@[simp] theorem renameState_cfgRxText (s : State) : (renameState f s).cfgRxText = s.cfgRxText := rfl
@[simp] theorem renameState_cfgFirstTagRule (s : State) : (renameState f s).cfgFirstTagRule = s.cfgFirstTagRule := rfl
@[simp] theorem renameState_faulted (s : State) : (renameState f s).faulted = s.faulted := rfl
@[simp] theorem renameState_faultReason (s : State) : (renameState f s).faultReason = s.faultReason := rfl
@[simp] theorem renameState_srcAsked (s : State) : (renameState f s).srcAsked = s.srcAsked := rfl
@[simp] theorem renameState_out (s : State) : (renameState f s).out = s.out := rfl
@[simp] theorem renameState_inbox (s : State) : (renameState f s).inbox = s.inbox.map (renameEvent f) := rfl
@[simp] theorem renameState_dp (s : State) : (renameState f s).dp = s.dp := rfl
@[simp] theorem renameState_bytesWidth (s : State) : (renameState f s).bytesWidth = s.bytesWidth := rfl
@[simp] theorem renameState_codes (s : State) : (renameState f s).codes = s.codes := rfl

/-! Register writes. -/

theorem renameState_setBusy (s : State) (v : Bool) :
    renameState f (s.setBusy v) = (renameState f s).setBusy v := rfl
theorem renameState_setRole (s : State) (v : Role) :
    renameState f (s.setRole v) = (renameState f s).setRole v := rfl
theorem renameState_setRxst (s : State) (v : Option RxSt) :
    renameState f (s.setRxst v) = (renameState f s).setRxst v := rfl
theorem renameState_setTxst (s : State) (v : Option TxSt) :
    renameState f (s.setTxst v) = (renameState f s).setTxst v := rfl
theorem renameState_setPh (s : State) (v : Option Phase) :
    renameState f (s.setPh v) = (renameState f s).setPh v := rfl
theorem renameState_setReq (s : State) (v : Option Request) :
    renameState f (s.setReq v) = (renameState f s).setReq v := rfl
theorem renameState_setMode (s : State) (v : Option Mode) :
    renameState f (s.setMode v) = (renameState f s).setMode v := rfl
theorem renameState_setBlk (s : State) (v : Option Byte) :
    renameState f (s.setBlk v) = (renameState f s).setBlk v := rfl
theorem renameState_setBlkset (s : State) (v : Option Bool) :
    renameState f (s.setBlkset v) = (renameState f s).setBlkset v := rfl
theorem renameState_setRetry (s : State) (v : Option Nat) :
    renameState f (s.setRetry v) = (renameState f s).setRetry v := rfl
theorem renameState_setTretry (s : State) (v : Option Nat) :
    renameState f (s.setTretry v) = (renameState f s).setTretry v := rfl
theorem renameState_setStatus (s : State) (v : Option Result) :
    renameState f (s.setStatus v) = (renameState f s).setStatus v := rfl
theorem renameState_setPsize (s : State) (v : Option Nat) :
    renameState f (s.setPsize v) = (renameState f s).setPsize v := rfl
theorem renameState_setIdx (s : State) (v : Option Nat) :
    renameState f (s.setIdx v) = (renameState f s).setIdx v := rfl
theorem renameState_setRblk (s : State) (v : Option Byte) :
    renameState f (s.setRblk v) = (renameState f s).setRblk v := rfl
theorem renameState_setRcblk (s : State) (v : Option Byte) :
    renameState f (s.setRcblk v) = (renameState f s).setRcblk v := rfl
theorem renameState_setChkbuf (s : State) (v : List Host.Cell) :
    renameState f (s.setChkbuf v) = (renameState f s).setChkbuf v := rfl
theorem renameState_setCidx (s : State) (v : Option Nat) :
    renameState f (s.setCidx v) = (renameState f s).setCidx v := rfl
theorem renameState_setChklen (s : State) (v : Option Nat) :
    renameState f (s.setChklen v) = (renameState f s).setChklen v := rfl
theorem renameState_setL (s : State) (v : Option Nat) :
    renameState f (s.setL v) = (renameState f s).setL v := rfl
theorem renameState_setPbuf (s : State) (v : List Host.Cell) :
    renameState f (s.setPbuf v) = (renameState f s).setPbuf v := rfl
theorem renameState_setN (s : State) (v : Option Nat) :
    renameState f (s.setN v) = (renameState f s).setN v := rfl
theorem renameState_setFrame (s : State) (v : Option Bytes) :
    renameState f (s.setFrame v) = (renameState f s).setFrame v := rfl
theorem renameState_setFlen (s : State) (v : Option Nat) :
    renameState f (s.setFlen v) = (renameState f s).setFlen v := rfl
theorem renameState_setResult (s : State) (v : Option Result) :
    renameState f (s.setResult v) = (renameState f s).setResult v := rfl
theorem renameState_setLastError (s : State) (v : Option Result) :
    renameState f (s.setLastError v) = (renameState f s).setLastError v := rfl
theorem renameState_setStorageCode (s : State) (v : Option StorageCode) :
    renameState f (s.setStorageCode v) = (renameState f s).setStorageCode (v.map f) := rfl
theorem renameState_setBytes (s : State) (v : Nat) :
    renameState f (s.setBytes v) = (renameState f s).setBytes v := rfl
theorem renameState_setCfgRetryMax (s : State) (v : Option Nat) :
    renameState f (s.setCfgRetryMax v) = (renameState f s).setCfgRetryMax v := rfl
theorem renameState_setCfgTxRetryMax (s : State) (v : Option Nat) :
    renameState f (s.setCfgTxRetryMax v) = (renameState f s).setCfgTxRetryMax v := rfl
theorem renameState_setCfgRxInitMode (s : State) (v : Option Mode) :
    renameState f (s.setCfgRxInitMode v) = (renameState f s).setCfgRxInitMode v := rfl
theorem renameState_setCfgRxText (s : State) (v : Option Bool) :
    renameState f (s.setCfgRxText v) = (renameState f s).setCfgRxText v := rfl
theorem renameState_setCfgFirstTagRule (s : State) (v : Option FirstTagRule) :
    renameState f (s.setCfgFirstTagRule v) = (renameState f s).setCfgFirstTagRule v := rfl
theorem renameState_setFaulted (s : State) (v : Bool) :
    renameState f (s.setFaulted v) = (renameState f s).setFaulted v := rfl
theorem renameState_setFaultReason (s : State) (v : Option FaultReason) :
    renameState f (s.setFaultReason v) = (renameState f s).setFaultReason v := rfl
theorem renameState_setSrcAsked (s : State) (v : Bool) :
    renameState f (s.setSrcAsked v) = (renameState f s).setSrcAsked v := rfl
theorem renameState_setOut (s : State) (v : List Out) :
    renameState f (s.setOut v) = (renameState f s).setOut v := rfl
theorem renameState_setInbox (s : State) (v : List Event) :
    renameState f (s.setInbox v) = (renameState f s).setInbox (v.map (renameEvent f)) := rfl
theorem renameState_setDp (s : State) (v : DpOut) :
    renameState f (s.setDp v) = (renameState f s).setDp v := rfl

/-! Operations. -/

theorem renameState_emit (s : State) (b : Byte) : renameState f (s.emit b) = (renameState f s).emit b := rfl

theorem renameState_emitBuf (s : State) (bytes : Bytes) :
    renameState f (s.emitBuf bytes) = (renameState f s).emitBuf bytes := rfl

theorem renameState_request (s : State) (q : Request) : renameState f (s.request q) = (renameState f s).request q := rfl

theorem renameState_addBytes (s : State) (k : Nat) : renameState f (s.addBytes k) = (renameState f s).addBytes k := rfl

theorem renameState_raise (s : State) (r : FaultReason) : renameState f (s.raise r) = (renameState f s).raise r := rfl

theorem renameState_latch (s : State) (cfg : SessionCfg) :
    renameState f (s.latch cfg) = (renameState f s).latch cfg := by
  rw [State.latch_eq, State.latch_eq]
  rfl

theorem renameState_rxStart (s : State) : renameState f s.rxStart = (renameState f s).rxStart := by
  rw [State.rxStart_eq, State.rxStart_eq]
  rfl

theorem renameState_txStart (s : State) : renameState f s.txStart = (renameState f s).txStart := by
  rw [State.txStart_eq, State.txStart_eq]
  rfl

theorem renameState_terminate (s : State) (t : EndState) (code : Result) :
    renameState f (s.terminate t code) = (renameState f s).terminate t code := by
  rw [State.terminate_eq, State.terminate_eq]
  rfl

/-- A guarded step commutes with the renaming if its body does. -/
theorem live_renameState {s : State} {k k' : Step} (h : k' = renameOutcome f k) :
    live (renameState f s) k' = renameOutcome f (live s k) := by
  cases hf : s.faulted
  · rw [live_of_running hf, live_of_running (by simpa using hf), h]
  · rw [live_of_faulted hf, live_of_faulted (by simpa using hf)]
    rfl

/-- The read of a register commutes with the renaming if what follows it does. -/
theorem need_renameState {α : Type} {s : State} {r : Option α} {k k' : α → Step}
    (h : ∀ v, k' v = renameOutcome f (k v)) : (renameState f s).need r k' = renameOutcome f (s.need r k) := by
  cases r with
  | none => rfl
  | some v => exact h v

/-- The read of the first bytes of an array likewise. -/
theorem needSlice_renameState {s : State} {size len : Nat} {m : List Host.Cell} {k k' : Bytes → Step}
    (h : ∀ v, k' v = renameOutcome f (k v)) :
    (renameState f s).needSlice size m len k' = renameOutcome f (s.needSlice size m len k) := by
  unfold State.needSlice
  split
  · exact need_renameState f h
  · rfl

/-- The write of a byte of an array likewise. -/
theorem storeByte_renameState {size a : Nat} {m : List Host.Cell} {b : Byte} {k k' : List Host.Cell → Step}
    (h : ∀ v, k' v = renameOutcome f (k v)) :
    storeByte size m a b k' = renameOutcome f (storeByte size m a b k) := by
  unfold storeByte
  split
  · exact h _
  · rfl

end Sys2Proof.Safety
end

