-- ==== Sys2Proof/Laws/Step.lean ====
section
/-! SUPPORT. Everything a step can do, said once: every next state of `step` is a wait, a model fault of the event, or
the execution of one decoded instruction. -/

namespace Sys2Proof.Machine

/-- How a step comes by its next state from the event `e`, once the event is out of the inbox and the state is `u`. -/
inductive Took (u t : State) : Event → Prop
  /-- an answer to no request, an answer that is not legal for it, or one that no rule of the phase takes -/
  | badAnswer (a : Answer) (r : Option Request) (h : ∀ q p, u.req = some q → legalAnswer q a = true → u.ph = some p →
      ∃ x, decode u.codes (.answerAt p a) = .error x) (ht : t = (u.setReq r).raise .badAnswer) : Took u t (.answer a)
  /-- a legal answer in no phase -/
  | noPhase (a : Answer) (h : u.ph = none) (hq : u.req ≠ none) (ht : t = (u.setReq none).raise .unwritten) :
      Took u t (.answer a)
  /-- a legal answer that is an instruction of the phase -/
  | answer (a : Answer) (q : Request) (p : Phase) (i : Instr) (hq : u.req = some q) (hl : legalAnswer q a = true)
      (hp : u.ph = some p) (hd : decode u.codes (.answerAt p a) = .ok i) (he : exec i (u.setReq none) = .next t) :
      Took u t (.answer a)
  /-- START of the receiver -/
  | startRx (cfg : SessionCfg) (he : exec (.hostStartRx cfg) u = .next t) : Took u t (.startRx cfg)
  /-- START of the sender -/
  | startTx (cfg : SessionCfg) (he : exec (.hostStartTx cfg) u = .next t) : Took u t (.startTx cfg)

/-- Every next state of `step`: a wait, or what the next event does. -/
theorem step_next {s t : State} (h : step s = .next t) :
    s.faulted = false ∧
      ((s.inbox = [] ∧ t = s) ∨ ∃ e rest, s.inbox = e :: rest ∧ Took (s.setInbox rest) t e) := by
  unfold step fetch at h
  cases hf : s.faulted
  · refine ⟨rfl, ?_⟩
    rw [hf] at h
    rcases hi : s.inbox with _ | ⟨e, rest⟩
    · rw [hi] at h
      simp only [Bool.false_eq_true, if_false, Host.Outcome.next.injEq] at h
      exact .inl ⟨rfl, h.symm⟩
    · refine .inr ⟨e, rest, rfl, ?_⟩
      rw [hi] at h
      simp only [Bool.false_eq_true, if_false] at h
      cases e with
      | startRx cfg => exact .startRx cfg (by simpa [fetchEvent, fetchCommand, decode] using h)
      | startTx cfg => exact .startTx cfg (by simpa [fetchEvent, fetchCommand, decode] using h)
      | answer a =>
        simp only [fetchEvent, fetchAnswer] at h
        rcases hq : (s.setInbox rest).req with _ | q
        · simp only [hq, Host.Outcome.next.injEq] at h
          refine .badAnswer a none (fun q p hq' => nomatch hq.symm.trans hq') ?_
          rw [← h, ← hq]
          rfl
        · rw [hq] at h
          cases hl : legalAnswer q a
          · simp only [hl, Bool.false_eq_true, if_false, Host.Outcome.next.injEq] at h
            refine .badAnswer a (some q) (fun q' p hq' hl' => ?_) ?_
            · obtain rfl : q = q' := Option.some.inj (hq.symm.trans hq')
              simp [hl] at hl'
            · rw [← h, ← hq]
              rfl
          · simp only [hl, if_true] at h
            rcases hp : (s.setInbox rest).ph with _ | p
            · simp only [hp, Host.Outcome.next.injEq] at h
              exact .noPhase a hp (fun hn => nomatch hq.symm.trans hn) h.symm
            · rw [hp] at h
              dsimp only at h
              rcases hd : decode (s.setInbox rest).codes (.answerAt p a) with x | i
              · simp only [hd, Host.Outcome.next.injEq] at h
                refine .badAnswer a none (fun q' p' _ _ hp' => ?_) h.symm
                obtain rfl : p = p' := Option.some.inj (hp.symm.trans hp')
                exact ⟨x, hd⟩
              · simp only [hd] at h
                exact .answer a q p i hq hl hp hd h
  · rw [hf] at h
    simp at h

end Sys2Proof.Machine
end

