-- ==== Sys2Proof/Tests/Slice0.lean ====
section
/-! SUPPORT. The model's own tests. Expected values come from the spec's tables and rules, named at each test. The last
part shows, for each statement that has hypotheses, values that meet them. -/

open Sys2Proof Sys2Proof.Machine Sys2Proof.Safety

namespace Sys2Proof.Tests

/-! ## Small states -/

/-- The next state of an answer, if it is one. -/
def after : Step → Option State
  | .next t => some t
  | .fault _ => none
  | .refused _ => none

/-- A configuration: receiver budget, sender budget, mode; text mode off, tag rule wrapped8. -/
def cfg (r k : Nat) (m : Mode) : SessionCfg := ⟨r, k, m, false, .wrapped8⟩

/-- A receiver in phase `p`: budget `r` of 3, mode `m`, `BLKSET` as given. -/
def rx (p : Phase) (r : Nat) (m : Mode) (set : Bool) : State :=
  { State.reset with
    busy := true, role := .rx, rxst := some (if set then .receiving else .awaitStart), ph := some p,
    req := some (.rd .char), mode := some m, blk := if set then some 1 else none, blkset := some set,
    retry := some r, status := some .ok, cfgRetryMax := some 3, cfgTxRetryMax := some 3,
    cfgRxInitMode := some .crc16, cfgRxText := some false, cfgFirstTagRule := some .wrapped8 }

/-- A sender in phase `p`, block `b`, budget `r` of 3, mode crc16, a chunk of one byte framed. -/
def tx (p : Phase) (r : Nat) (b : Byte) : State :=
  { State.reset with
    busy := true, role := .tx, txst := some .sending, ph := some p, req := some (.rd .resp), mode := some .crc16,
    blk := some b, tretry := some r, status := some .ok, srcAsked := true,
    n := some 1, frame := some (encodeFrame 0x01 b (pad [0x41] 128) .crc16), flen := some 133,
    cfgRetryMax := some 3, cfgTxRetryMax := some 3, cfgRxInitMode := some .crc16, cfgRxText := some false,
    cfgFirstTagRule := some .wrapped8 }

/-- A sender at the handshake. -/
def hs : State :=
  { tx .hs 1 1 with
    txst := some .awaitHandshake, req := some (.rd .hs), mode := none, blk := none, tretry := none, n := none,
    frame := none, flen := none, srcAsked := false }

/-- A payload of `p` zeros in PBUF, from index `k` on: its checksum is 0 and its CRC is 0 (95_test_vectors.md L2.1,
L2.2). -/
def zeros (k : Nat) : Nat → List Host.Cell
  | 0 => []
  | p + 1 => (k, 0) :: zeros (k + 1) p

/-- A receiver that lacks the last byte of the verification field of a packet of `p` zeros, block 1. -/
def lastChk (p r : Nat) (m : Mode) (set : Bool) (c : Byte) : State :=
  { rx .chk r m set with
    psize := some p, rblk := some 1, rcblk := some c, idx := some p, pbuf := zeros 0 p,
    chklen := some (checkLen m),
    cidx := some (match m with | .crc16 => 1 | .checksum => 0),
    chkbuf := match m with | .crc16 => [(0, 0)] | .checksum => [] }

/-! ## Well-formedness: each check refuses an ill-formed term -/

theorem test_wf_rx_hdr_other : [0x01, 0x02, 0x04, 0x18].all (fun b => !wellFormed Codes.default (.rxHdrOther b)) = true := by decide
theorem test_wf_tx_hs_other : [0x43, 0x15].all (fun b => !wellFormed Codes.default (.txHsOther b)) = true := by decide
theorem test_wf_tx_frame_soh :
    wellFormed Codes.default (.txFrameSoh 0 []) = false ∧ wellFormed Codes.default (.txFrameSoh 129 (List.replicate 129 0)) = false ∧
    wellFormed Codes.default (.txFrameSoh 2 [0]) = false ∧ wellFormed Codes.default (.txFrameSoh 1 [0]) = true := by decide
theorem test_wf_tx_frame_stx :
    wellFormed Codes.default (.txFrameStx 128 (List.replicate 128 0)) = false ∧ wellFormed Codes.default (.txFrameStx 129 [0]) = false ∧
    wellFormed Codes.default (.txFrameStx 1025 []) = false ∧ wellFormed Codes.default (.txFrameStx 129 (List.replicate 129 0)) = true := by
  decide +kernel
theorem test_wf_tx_src_contract :
    wellFormed Codes.default (.txSrcContract 1 [0]) = false ∧ wellFormed Codes.default (.txSrcContract 2 [0]) = true ∧
    wellFormed Codes.default (.txSrcContract 1025 []) = true := by decide
theorem test_wf_tx_resp_other :
    wellFormed Codes.default (.txRespOther (.byte 0x06)) = false ∧ wellFormed Codes.default (.txRespOther (.byte 0x18)) = false ∧
    wellFormed Codes.default (.txRespOther .timeout) = true := by decide
theorem test_wf_tx_resp_can_other :
    wellFormed Codes.default (.txRespCanOther (.byte 0x18)) = false ∧ wellFormed Codes.default (.txRespCanOther (.byte 0x06)) = true := by decide
theorem test_wf_tx_eot_other :
    wellFormed Codes.default (.txEotOther 0x06) = false ∧ wellFormed Codes.default (.txEotOther 0x18) = false ∧
    wellFormed Codes.default (.txEotCanOther (.byte 0x18)) = false := by decide
theorem test_wf_host_sink : wellFormed Codes.default (.hostSink 1 (List.replicate 1025 0)) = false := by decide +kernel
theorem test_wf_host_src : wellFormed Codes.default (.hostSrc 1023 true) = false ∧ wellFormed Codes.default (.hostSrc 1024 true) = true := by
  decide
theorem test_wf_chk_bytes : wellFormed Codes.default (.chkBytes [0] .crc16) = false := by decide
theorem test_wf_verify :
    wellFormed Codes.default (.verify [0] .crc16 [0, 0]) = false ∧
    wellFormed Codes.default (.verify (List.replicate 128 0) .crc16 [0]) = false := by decide +kernel
theorem test_wf_pad :
    wellFormed Codes.default (.pad [0] 100) = false ∧ wellFormed Codes.default (.pad [] 128) = false ∧
    wellFormed Codes.default (.pad (List.replicate 129 0) 128) = false := by decide +kernel
theorem test_wf_encode_frame :
    wellFormed Codes.default (.encodeFrame 0x04 1 [] .crc16) = false ∧ wellFormed Codes.default (.encodeFrame 0x01 1 [0] .crc16) = false := by
  decide

/-! ## Decoding: every row with an encoding, its place and byte written out from the opcode table -/

theorem test_decode_rx_hdr :
    decode Codes.default (.answerAt .hdr (.byte 0x01)) = .ok .rxHdrSoh ∧ decode Codes.default (.answerAt .hdr (.byte 0x02)) = .ok .rxHdrStx ∧
    decode Codes.default (.answerAt .hdr (.byte 0x04)) = .ok .rxHdrEot ∧ decode Codes.default (.answerAt .hdr (.byte 0x18)) = .ok .rxHdrCan ∧
    decode Codes.default (.answerAt .hdr (.byte 0x06)) = .ok (.rxHdrOther 0x06) ∧
    decode Codes.default (.answerAt .hdr .timeout) = .ok .rxHdrTimeout := by decide
theorem test_decode_rx_packet :
    decode Codes.default (.answerAt .bnum (.byte 0x04)) = .ok (.rxBnum 0x04) ∧
    decode Codes.default (.answerAt .bcmp (.byte 0xFB)) = .ok (.rxBcmp 0xFB) ∧
    decode Codes.default (.answerAt .data (.byte 0x18)) = .ok (.rxData 0x18) ∧
    decode Codes.default (.answerAt .chk (.byte 0x01)) = .ok (.rxChk 0x01) ∧
    decode Codes.default (.answerAt .bnum .timeout) = .ok .rxShortRead ∧ decode Codes.default (.answerAt .chk .timeout) = .ok .rxShortRead := by
  decide
theorem test_decode_rx_answers (code : StorageCode) :
    decode Codes.default (.answerAt .sink .sinkOk) = .ok .rxSinkOk ∧
    decode Codes.default (.answerAt .sink (.sinkFail code)) = .ok (.rxSinkFail code) ∧
    decode Codes.default (.answerAt .settle .elapsed) = .ok .rxSettleElapsed ∧
    decode Codes.default (.answerAt .settle .timeout) = .error .badAnswer := ⟨rfl, rfl, rfl, rfl⟩
theorem test_decode_emissions :
    decode Codes.default (.rxEmit [.wr 0x43]) = .ok .rxEmitCrq ∧ decode Codes.default (.rxEmit [.wr 0x15]) = .ok .rxEmitNak ∧
    decode Codes.default (.rxEmit [.wr 0x06]) = .ok .rxEmitAck ∧ decode Codes.default (.rxEmit [.wr 0x18, .wr 0x18]) = .ok .rxEmitAbort ∧
    decode Codes.default (.txEmit [.wr 0x04]) = .ok .txEmitEot ∧ decode Codes.default (.txEmit [.wr 0x18, .wr 0x18]) = .ok .txEmitAbort ∧
    decode Codes.default (.txEmit [.flush]) = .ok .txEmitFlush ∧ decode Codes.default (.rxEmit [.wr 0x04]) = .error .notAnEmission := by decide
theorem test_decode_tx_handshake :
    decode Codes.default (.answerAt .hs (.byte 0x43)) = .ok .txHsCrq ∧ decode Codes.default (.answerAt .hs (.byte 0x15)) = .ok .txHsNak ∧
    decode Codes.default (.answerAt .hs (.byte 0x18)) = .ok (.txHsOther 0x18) ∧
    decode Codes.default (.answerAt .hs .timeout) = .ok .txHsTimeout := by decide
theorem test_decode_tx_source (code : StorageCode) :
    decode Codes.default (.answerAt .src (.srcData 0 [])) = .ok .txSrcEof ∧
    decode Codes.default (.answerAt .src (.srcData 1 [0x41])) = .ok (.txFrameSoh 1 [0x41]) ∧
    decode Codes.default (.answerAt .src (.srcData 2 [0x41])) = .ok (.txSrcContract 2 [0x41]) ∧
    decode Codes.default (.answerAt .src (.srcFail code)) = .ok (.txSrcFail code) :=
  ⟨by decide, by decide, by decide, rfl⟩
theorem test_decode_tx_source_boundaries :
    decode Codes.default (.answerAt .src (.srcData 128 (List.replicate 128 0))) = .ok (.txFrameSoh 128 (List.replicate 128 0)) ∧
    decode Codes.default (.answerAt .src (.srcData 129 (List.replicate 129 0))) = .ok (.txFrameStx 129 (List.replicate 129 0)) := by
  decide +kernel
theorem test_decode_tx_responses :
    decode Codes.default (.answerAt .resp (.byte 0x06)) = .ok .txRespAck ∧ decode Codes.default (.answerAt .resp (.byte 0x18)) = .ok .txRespCan ∧
    decode Codes.default (.answerAt .resp (.byte 0x15)) = .ok (.txRespOther (.byte 0x15)) ∧
    decode Codes.default (.answerAt .resp .timeout) = .ok (.txRespOther .timeout) ∧
    decode Codes.default (.answerAt .respCan (.byte 0x18)) = .ok .txRespCanCan ∧
    decode Codes.default (.answerAt .respCan (.byte 0x06)) = .ok (.txRespCanOther (.byte 0x06)) := by decide
theorem test_decode_tx_eot :
    decode Codes.default (.answerAt .eot (.byte 0x06)) = .ok .txEotAck ∧ decode Codes.default (.answerAt .eot (.byte 0x18)) = .ok .txEotCan ∧
    decode Codes.default (.answerAt .eot .timeout) = .ok .txEotTimeout ∧
    decode Codes.default (.answerAt .eot (.byte 0x15)) = .ok (.txEotOther 0x15) ∧
    decode Codes.default (.answerAt .eotCan (.byte 0x18)) = .ok .txEotCanCan ∧
    decode Codes.default (.answerAt .eotCan .timeout) = .ok (.txEotCanOther .timeout) := by decide
theorem test_decode_host :
    decode Codes.default (.command (.startRx (cfg 3 3 .crc16))) = .ok (.hostStartRx (cfg 3 3 .crc16)) ∧
    decode Codes.default (.command (.startTx (cfg 3 3 .crc16))) = .ok (.hostStartTx (cfg 3 3 .crc16)) ∧
    decode Codes.default (.request (.rd .char)) = .ok (.hostRd .char) ∧ decode Codes.default (.request .delay) = .ok .hostDelay ∧
    decode Codes.default (.request (.sink 1 [2])) = .ok (.hostSink 1 [2]) ∧
    decode Codes.default (.request (.src 1024 true)) = .ok (.hostSrc 1024 true) ∧
    decode Codes.default (.request (.src 1023 true)) = .error .badRequest ∧
    decode Codes.default (.output (.wr 0x43)) = .ok (.hostWr 0x43) ∧ decode Codes.default (.output (.wrbuf [1, 2])) = .ok (.hostWrbuf [1, 2]) ∧
    decode Codes.default (.output .flush) = .ok .hostFlush ∧ decode Codes.default (.command (.answer .elapsed)) = .error .notACommand := by decide
theorem test_table_words :
    decodeTableWord 8 0x02 = some .rxHdrStx ∧ decodeTableWord 8 0x43 = some .txHsCrq ∧
    decodeTableWord 8 0x06 = some .txRespAck ∧ decodeTableWord 8 0 = some .txSrcEof ∧
    decodeTableWord 16 0x1818 = some .rxEmitAbort ∧ decodeTableWord 24 0 = none := by decide

/-- The word of a row, placed right after reset, is run by the next step: SOH sets `PSIZE` (R143). -/
theorem test_placed_word_runs :
    (after (step (State.reset.withFetchWord 8 0x01))).map (fun t => (t.psize, t.ph)) =
      some (some 128, some .bnum) := by decide
theorem test_placed_emission_runs :
    (after (step (State.reset.withFetchWord 16 0x1818))).map (fun t => t.out) = some [.wr 0x18, .wr 0x18] := by decide

/-! ## The codec (95_test_vectors.md L2.1 to L2.5) -/

theorem test_crc16_update :
    crc16Update 0x0000 0xFF = 0x1EF0 ∧ crc16Update 0x0001 0x00 = 0x0100 ∧ crc16Update 0xFFFF 0x00 = 0xE1F0 := by decide
theorem test_crc16 :
    crc16 [0x48, 0x45, 0x4C, 0x4C, 0x4F] 0 = 0x58DA ∧ crc16 [0x31, 0x32, 0x33, 0x34] 0 = 0xD789 ∧
    crc16 [0x35, 0x36, 0x37, 0x38, 0x39] 0xD789 = 0x31C3 := by decide +kernel
theorem test_cksum :
    cksum [0x31, 0x32, 0x33, 0x34] = 0xCA ∧ cksum [0x48, 0x45, 0x4C, 0x4C, 0x4F] = 0x74 ∧ cksum [0x80, 0x80] = 0 := by
  decide
theorem test_infer_size :
    inferSize Codes.default 0x01 = 128 ∧ inferSize Codes.default 0x02 = 1024 ∧ inferSize Codes.default 0x04 = 0 ∧ inferSize Codes.default 0x18 = 0 ∧ inferSize Codes.default 0x43 = 0 := by
  decide
theorem test_check_len : checkLen .checksum = 1 ∧ checkLen .crc16 = 2 := by decide
theorem test_chk_bytes :
    chkBytes [0x31, 0x32, 0x33, 0x34] .crc16 = [0xD7, 0x89] ∧ chkBytes [0x31, 0x32, 0x33, 0x34] .checksum = [0xCA] := by
  decide +kernel
theorem test_verify :
    verify [0x31, 0x32, 0x33, 0x34] .crc16 [0xD7, 0x89] = .ok ∧
    verify [0x31, 0x32, 0x33, 0x34] .crc16 [0x89, 0xD7] = .crcError ∧
    verify [0x31, 0x32, 0x33, 0x34] .checksum [0xCA] = .ok := by decide +kernel
theorem test_blkchk :
    blkchk 0x01 0xFE = true ∧ blkchk 0xFF 0x00 = true ∧ blkchk 0x01 0x01 = false ∧ blkchk 0x01 0xFF = false := by decide
theorem test_pad : pad [0x41, 0x42] 128 = [0x41, 0x42] ++ List.replicate 126 0x1A := rfl
theorem test_encode_frame :
    (encodeFrame 0x01 0xFF (pad [0x41] 128) .checksum).take 4 = [0x01, 0xFF, 0x00, 0x41] ∧
    encodeFrame 0x01 0x00 [0x31, 0x32, 0x33, 0x34] .crc16 =
      [0x01, 0x00, 0xFF, 0x31, 0x32, 0x33, 0x34, 0xD7, 0x89] := by decide +kernel
theorem test_size_select :
    sizeSelect Codes.default 0 = .eot ∧ sizeSelect Codes.default 128 = .packet 0x01 128 ∧ sizeSelect Codes.default 129 = .packet 0x02 1024 ∧
    sizeSelect Codes.default 1024 = .packet 0x02 1024 := by decide
theorem test_trim :
    trim [0x41, 0x42, 0x1A, 0x1A, 0x1A] = 2 ∧ trim [0x41, 0x1A, 0x42] = 3 ∧ trim [] = 0 ∧ trim [0x1A, 0x1A] = 0 := by
  decide
theorem test_start_byte : startByte Codes.default .crc16 = 0x43 ∧ startByte Codes.default .checksum = 0x15 := by decide
/-- R196: block 0 and 1 are tagged under wrapped8. -/
theorem test_first_tag :
    (after (exec (.firstTag 1) hs)).map (·.dp) = some (.flag true) ∧
    (after (exec (.firstTag 2) hs)).map (·.dp) = some (.flag false) := by decide
/-- R196: under first_only only the session's first request is tagged. -/
theorem test_first_tag_first_only :
    (after (exec (.firstTag 0) { tx .src 1 0 with cfgFirstTagRule := some .firstOnly })).map (·.dp) =
      some (.flag false) := by decide

/-! ## The receiver, one step each -/

/-- V-RX1 and V-RX2. -/
theorem test_rx_settle_elapsed :
    (after (exec .rxSettleElapsed (rx .settle 3 .crc16 false))).map (fun t => (t.out, t.ph)) =
      some ([.wr 0x43], some .hdr) ∧
    (after (exec .rxSettleElapsed (rx .settle 3 .checksum false))).map (·.out) = some [.wr 0x15] := by decide
theorem test_rx_hdr_data :
    (after (exec .rxHdrSoh (rx .hdr 3 .crc16 false))).map (·.psize) = some (some 128) ∧
    (after (exec .rxHdrStx (rx .hdr 3 .crc16 false))).map (·.psize) = some (some 1024) := by decide
/-- V-RX6. -/
theorem test_rx_hdr_eot :
    (after (exec .rxHdrEot (rx .hdr 3 .crc16 false))).map (fun t => (t.out, t.rxst, t.result, t.lastError)) =
      some ([.wr 0x06], some .endOfTransfer, some .endOfTransfer, none) := by decide
/-- V-RX7. -/
theorem test_rx_hdr_can :
    (after (exec .rxHdrCan (rx .hdr 3 .crc16 false))).map (fun t => (t.out, t.rxst, t.result, t.lastError)) =
      some ([], some .cancelled, some .cancel, some .cancel) := by decide
/-- V-RX8, and R160 for a framing error on the last attempt. -/
theorem test_rx_hdr_other :
    (after (exec (.rxHdrOther 0x41) (rx .hdr 3 .crc16 false))).map (fun t => (t.out, t.retry, t.status)) =
      some ([.wr 0x43], some 2, some .framingError) ∧
    (after (exec (.rxHdrOther 0x41) (rx .hdr 1 .crc16 false))).map (fun t => (t.out, t.retry, t.mode)) =
      some ([.wr 0x15], some 3, some .checksum) := by decide
/-- V-RX9 and V-RX10. -/
theorem test_rx_hdr_timeout :
    (after (exec .rxHdrTimeout (rx .hdr 3 .crc16 true))).map (fun t => (t.out, t.retry, t.status)) =
      some ([.wr 0x15], some 2, some .timeout) ∧
    (after (exec .rxHdrTimeout (rx .hdr 1 .crc16 true))).map (fun t => (t.out, t.rxst, t.result)) =
      some ([], some .failed, some .timeout) := by decide
theorem test_rx_bnum :
    (after (exec (.rxBnum 0x04) (rx .bnum 3 .crc16 false))).map (fun t => (t.rblk, t.ph)) =
      some (some 0x04, some .bcmp) := by decide
/-- The pair is not checked at RX.BCMP (R150). -/
theorem test_rx_bcmp :
    (after (exec (.rxBcmp 0x04) { rx .bcmp 3 .crc16 false with rblk := some 0x04 })).map
      (fun t => (t.rcblk, t.idx, t.ph, t.out)) = some (some 0x04, some 0, some .data, []) := by decide
/-- R151, before the last payload byte and at it. -/
theorem test_rx_data :
    (after (exec (.rxData 0x18) { rx .data 3 .crc16 false with psize := some 128, idx := some 5 })).map
      (fun t => (t.idx, t.ph, t.pbuf)) = some (some 6, some .data, [(5, 0x18)]) ∧
    (after (exec (.rxData 0x18) { rx .data 3 .crc16 false with psize := some 128, idx := some 127 })).map
      (fun t => (t.cidx, t.chklen, t.ph)) = some (some 0, some 2, some .chk) := by decide
/-- R156: a good packet goes to the sink and restores the budget. -/
theorem test_rx_chk_good :
    (after (exec (.rxChk 0) (lastChk 4 1 .crc16 false 0xFE))).map (fun t => (t.retry, t.blk, t.rxst)) =
      some (some 3, some 1, some .receiving) ∧
    (after (exec (.rxChk 0) (lastChk 4 1 .crc16 false 0xFE))).map (fun t => (t.l, t.req)) =
      some (some 4, some (.sink 1 [0, 0, 0, 0])) := by decide +kernel
/-- V-RX4: a bad complement is a CRC error and draws NAK. -/
theorem test_rx_chk_bad_complement :
    (after (exec (.rxChk 0) (lastChk 4 3 .crc16 false 0x01))).map (fun t => (t.out, t.retry, t.status, t.blk)) =
      some ([.wr 0x15], some 2, some .crcError, none) := by decide
/-- V-RX5. -/
theorem test_rx_short_read :
    (after (exec .rxShortRead (rx .data 3 .crc16 false))).map (fun t => (t.out, t.retry, t.ph)) =
      some ([.wr 0x43], some 2, some .hdr) := by decide
/-- R157; and the counter at a width of 8 bits wraps (D11). -/
theorem test_rx_sink_ok :
    (after (exec .rxSinkOk { rx .sink 3 .crc16 true with l := some 128 })).map (fun t => (t.out, t.bytes, t.ph)) =
      some ([.wr 0x06], 128, some .hdr) ∧
    (after (exec .rxSinkOk { rx .sink 3 .crc16 true with l := some 128, bytes := 200, bytesWidth := some 8 })).map
      (·.bytes) = some 72 := by decide
/-- V-RX16. -/
theorem test_rx_sink_fail (code : StorageCode) :
    (after (exec (.rxSinkFail code) { rx .sink 3 .crc16 true with l := some 128 })).map
      (fun t => (t.out, t.rxst, t.result, t.storageCode, t.bytes)) =
      some ([.wr 0x18, .wr 0x18], some .failed, some .storageError, some code, 0) := rfl

/-! ## The sender, one step each -/

/-- V-TX2 and V-TX3. -/
theorem test_tx_hs :
    (after (exec .txHsCrq hs)).map (fun t => (t.mode, t.blk, t.txst, t.req)) =
      some (some .crc16, some 1, some .sending, some (.src 1024 true)) ∧
    (after (exec .txHsNak hs)).map (fun t => (t.mode, t.req)) = some (some .checksum, some (.src 1024 true)) := by decide
/-- V-TX4: CAN too is discarded. -/
theorem test_tx_hs_other :
    (after (exec (.txHsOther 0x18) hs)).map (fun t => (t.ph, t.out, t.busy)) = some (some .hs, [], true) := by decide
/-- V-TX5. -/
theorem test_tx_hs_timeout :
    (after (exec .txHsTimeout hs)).map (fun t => (t.txst, t.result)) = some (some .failed, some .timeout) := by decide
/-- V-TX12. -/
theorem test_tx_src_eof :
    (after (exec .txSrcEof (tx .src 1 1))).map (fun t => (t.out, t.ph)) = some ([.wr 0x04], some .eot) := by decide
/-- V-TX6. -/
theorem test_tx_frame_soh :
    (after (exec (.txFrameSoh 5 [0x48, 0x45, 0x4C, 0x4C, 0x4F]) (tx .src 1 1))).map
      (fun t => (t.n, t.flen, t.tretry, t.out.take 4)) =
      some (some 5, some 133, some 3, [.wr 0x01, .wr 0x01, .wr 0xFE, .wr 0x48]) := by
  decide +kernel
/-- V-TX22. -/
theorem test_tx_frame_stx (d : Bytes) (h : d.length = 129) :
    ∃ t, exec (.txFrameStx 129 d) (tx .src 1 1) = .next t ∧ t.n = some 129 ∧
      t.flen = some 1029 ∧ t.tretry = some 3 ∧ t.out.length = 1029 := by
  have h1 : (pad d 1024).length = 1024 := pad_length (by omega)
  simp [exec, execTxFrameStx, live, tx, State.reset, frameChunk, sendFirst, sendFrame, checkLen, h1, Config.stxSize,
    State.awaitResponse_eq, State.emitBuf_eq]
/-- V-TX20. -/
theorem test_tx_src_contract :
    (after (exec (.txSrcContract 1500 []) (tx .src 1 1))).map (fun t => (t.faulted, t.busy, t.out)) =
      some (true, true, []) := by decide
/-- V-TX19. -/
theorem test_tx_src_fail (code : StorageCode) :
    (after (exec (.txSrcFail code) (tx .src 1 1))).map (fun t => (t.out, t.txst, t.result, t.storageCode)) =
      some ([.wr 0x18, .wr 0x18], some .failed, some .storageError, some code) := rfl
/-- V-TX7 and V-TX21: block 255 is followed by block 0, tagged as a first block under wrapped8. -/
theorem test_tx_resp_ack :
    (after (exec .txRespAck (tx .resp 3 1))).map (fun t => (t.blk, t.bytes, t.req)) =
      some (some 2, 1, some (.src 1024 false)) ∧
    (after (exec .txRespAck (tx .resp 3 255))).map (fun t => (t.blk, t.req)) =
      some (some 0, some (.src 1024 true)) := by decide +kernel
theorem test_tx_resp_can :
    (after (exec .txRespCan (tx .resp 3 1))).map (fun t => (t.ph, t.tretry, t.busy)) =
      some (some .respCan, some 3, true) := by decide +kernel
/-- V-TX8 and V-TX9. -/
theorem test_tx_resp_other :
    (after (exec (.txRespOther (.byte 0x15)) (tx .resp 3 1))).map
      (fun t => (t.tretry, t.status, t.out.length, t.out.take 3)) =
      some (some 2, some .error, 133, [.wr 0x01, .wr 0x01, .wr 0xFE]) ∧
    (after (exec (.txRespOther .timeout) (tx .resp 1 1))).map (fun t => (t.out, t.txst, t.result)) =
      some ([], some .failed, some .timeout) := by decide +kernel
/-- V-TX10 and V-TX11. -/
theorem test_tx_resp_can_second :
    (after (exec .txRespCanCan (tx .respCan 3 1))).map (fun t => (t.txst, t.result, t.bytes)) =
      some (some .failed, some .cancel, 0) ∧
    (after (exec (.txRespCanOther (.byte 0x06)) (tx .respCan 3 1))).map (fun t => (t.out.length, t.blk, t.ph)) =
      some (133, some 1, some .resp) := by decide +kernel
/-- V-TX13, V-TX14 and V-TX15. -/
theorem test_tx_eot :
    (after (exec .txEotAck (tx .eot 3 1))).map (fun t => (t.txst, t.result, t.lastError)) =
      some (some .done, some .ok, none) ∧
    (after (exec (.txEotOther 0x15) (tx .eot 3 1))).map (·.result) = some (some .error) ∧
    (after (exec .txEotTimeout (tx .eot 3 1))).map (·.result) = some (some .timeout) ∧
    (after (exec .txEotCan (tx .eot 3 1))).map (·.ph) = some (some .eotCan) := by decide +kernel
/-- V-TX16, V-TX17 and V-TX18. -/
theorem test_tx_eot_can :
    (after (exec .txEotCanCan (tx .eotCan 3 1))).map (·.result) = some (some .cancel) ∧
    (after (exec (.txEotCanOther .timeout) (tx .eotCan 3 1))).map (·.result) = some (some .timeout) ∧
    (after (exec (.txEotCanOther (.byte 0x06)) (tx .eotCan 3 1))).map (·.result) = some (some .error) := by
  decide +kernel

/-! ## The host interface -/

/-- R140. -/
theorem test_host_start_rx :
    (after (exec (.hostStartRx (cfg 3 2 .checksum)) State.reset)).map
      (fun t => (t.role, t.ph, t.mode)) = some (.rx, some .settle, some .checksum) ∧
    (after (exec (.hostStartRx (cfg 3 2 .checksum)) State.reset)).map (fun t => (t.retry, t.req)) =
      some (some 3, some .delay) := by decide
/-- V-TX1, V-H2 and V-H3. -/
theorem test_host_start_tx :
    (after (exec (.hostStartTx (cfg 3 2 .crc16)) State.reset)).map (fun t => (t.out, t.ph, t.txst, t.mode)) =
      some ([.flush], some .hs, some .awaitHandshake, none) ∧
    (after (exec (.hostStartTx (cfg 3 2 .crc16)) (rx .hdr 3 .crc16 false))).map (fun t => (t.faulted, t.role)) =
      some (true, .rx) ∧
    (after (exec (.hostStartRx (cfg 0 2 .crc16)) State.reset)).map (fun t => (t.faulted, t.busy)) =
      some (true, false) := by decide
/-- V-H4 and V-H5. -/
theorem test_bad_answers :
    (after (step { rx .settle 3 .crc16 false with req := some .delay, inbox := [.answer (.byte 0x41)] })).map
      (fun t => (t.faulted, t.faultReason, t.out)) = some (true, some .badAnswer, []) ∧
    (after (step { rx .hdr 3 .crc16 false with inbox := [.answer .sinkOk] })).map (·.faulted) = some true := by decide
/-- The defaults of START's operands (00_scope.md R7, D12, D13, D30). -/
theorem test_cfg_defaults : ({ retryMax := 3, txRetryMax := 2 } : SessionCfg) = ⟨3, 2, .crc16, false, .wrapped8⟩ := rfl

/-- An engine built with other control codes (D2). -/
def otherCodes : Codes := ⟨0xA1, 0xA2, 0xA3, 0xA4, 0xA5, 0xA6, 0xA7⟩

/-- The default codes mean nothing to it; its own decode, and it emits its own. -/
theorem test_other_codes :
    decode otherCodes (.answerAt .hdr (.byte 0xA3)) = .ok .rxHdrEot ∧
    decode otherCodes (.answerAt .hdr (.byte 0x04)) = .ok (.rxHdrOther 0x04) ∧
    (after (step { rx .hdr 3 .crc16 true with codes := otherCodes, inbox := [.answer (.byte 0xA3)] })).map (·.out) =
      some [.wr 0xA4] := by decide
/-- R254: `ROLE` names the register that takes the terminal state, whichever rule ends the session. -/
theorem test_terminate_reads_role :
    ((rx .hdr 3 .crc16 true).terminate .failed .timeout).rxst = some .failed ∧
    ({ rx .hdr 3 .crc16 true with role := .tx }.terminate .failed .timeout).txst = some .failed ∧
    ({ rx .hdr 3 .crc16 true with role := .tx }.terminate .failed .timeout).rxst = some .receiving := by decide
/-- R43: the read of a register without a value. -/
theorem test_unwritten :
    (after (exec .rxSinkOk (rx .sink 3 .crc16 true))).map (fun t => (t.faulted, t.faultReason, t.bytes, t.out)) =
      some (true, some .unwritten, 0, []) := by decide

/-! ## States that meet the hypotheses of the statements -/

theorem witness_not_faulted : State.reset.faulted = false := rfl
theorem witness_running_rx (p : Phase) (m : Mode) : (rx p 1 m false).faulted = false ∧ (rx p 1 m false).role = .rx :=
  ⟨rfl, rfl⟩
theorem witness_running_tx (p : Phase) : (tx p 1 1).faulted = false ∧ (tx p 1 1).role = .tx := ⟨rfl, rfl⟩
theorem witness_handshake_tx : hs.faulted = false ∧ hs.role = .tx := ⟨rfl, rfl⟩
theorem witness_distinct_codes :
    State.reset.codes.distinct = true ∧ Codes.default.distinct = true ∧ otherCodes.distinct = true := by decide
theorem witness_faulted : (State.reset.raise .badAnswer).faulted = true := rfl

theorem inv_reset : Inv State.reset := ⟨rfl, rfl, rfl, by decide, fun _ => ⟨rfl, rfl, rfl, rfl, rfl, rfl⟩⟩

theorem inv_rx_hdr (m : Mode) (set : Bool) : Inv (rx .hdr 1 m set) := by
  cases set
  · exact ⟨rfl, rfl, rfl, nofun,
      fun _ => ⟨⟨rfl, rfl, rfl, rfl, rfl, rfl, rfl, ⟨1, 3, rfl, rfl, by decide, by decide⟩, .inl ⟨rfl, rfl, rfl⟩⟩, rfl⟩⟩
  · exact ⟨rfl, rfl, rfl, nofun,
      fun _ => ⟨⟨rfl, rfl, rfl, rfl, rfl, rfl, rfl, ⟨1, 3, rfl, rfl, by decide, by decide⟩, .inr ⟨rfl, rfl, rfl⟩⟩, rfl⟩⟩

/-- `s` with the given events to come. -/
def feed (s : State) (es : List Event) : State := { s with inbox := es }

theorem inv_feed {s : State} (es : List Event) (h : Inv s) : Inv (feed s es) := by
  obtain ⟨h0, h1, h2, h3, h4⟩ := h
  refine ⟨h0, h1, h2, h3, fun hf => ?_⟩
  have := h4 hf
  rcases s with ⟨⟩
  exact this

/-- A receiver that waits for the sink, block 1, two bytes. -/
def sinkWait : State := { rx .sink 3 .crc16 true with l := some 2, req := some (.sink 1 [0x41, 0x42]) }

theorem inv_sink_wait : Inv sinkWait :=
  ⟨rfl, rfl, rfl, by decide, fun _ => ⟨⟨rfl, rfl, rfl, rfl, rfl, rfl, rfl, ⟨3, 3, rfl, rfl, by decide, by decide⟩,
    .inr ⟨rfl, rfl, rfl⟩⟩, rfl, 1, [0x41, 0x42], rfl, rfl, by decide, rfl⟩⟩

theorem inv_hs : Inv hs :=
  ⟨rfl, rfl, rfl, by decide,
    fun _ => ⟨⟨rfl, rfl, rfl, rfl, rfl, rfl, 3, rfl, by decide⟩, rfl, rfl, rfl, rfl⟩⟩

theorem inv_tx_resp : Inv (tx .resp 3 1) :=
  ⟨rfl, rfl, rfl, by decide, fun _ => ⟨⟨⟨rfl, rfl, rfl, rfl, rfl, rfl, 3, rfl, by decide⟩, rfl, rfl, rfl, rfl⟩, rfl,
    1, .crc16, [0x41], 0x01, 128, 3, 3, rfl, rfl, rfl, by decide, .inl ⟨rfl, rfl, by decide⟩, rfl, rfl, rfl, rfl,
    by decide, by decide⟩⟩

/-- The payload's first two bytes are in PBUF; the third comes. -/
def dataWait : State :=
  { rx .data 3 .crc16 false with
    psize := some 128, rblk := some 1, rcblk := some 0xFE, idx := some 2, pbuf := [(0, 0x41), (1, 0x42)] }

theorem inv_data_wait : Inv dataWait :=
  ⟨rfl, rfl, rfl, by decide, fun _ => ⟨⟨rfl, rfl, rfl, rfl, rfl, rfl, rfl, ⟨3, 3, rfl, rfl, by decide, by decide⟩,
    .inl ⟨rfl, rfl, rfl⟩⟩, rfl, 128, 2, ⟨rfl, .inl rfl, rfl, rfl⟩, rfl, by decide,
    fun a ha => by
      obtain rfl | rfl : a = 0 ∨ a = 1 := by omega
      · rfl
      · rfl⟩⟩

/-- A session that ended by cancellation. -/
def cancelled : State := (rx .hdr 3 .crc16 false).terminate .cancelled .cancel

theorem inv_cancelled : Inv cancelled :=
  ⟨rfl, rfl, rfl, by decide, fun _ => ⟨rfl, rfl, .cancel, rfl, rfl, fun _ _ => rfl, by decide,
    .inl ⟨rfl, .cancelled, rfl, .inr (.inl ⟨rfl, rfl⟩)⟩⟩⟩

theorem witness_DataPacketLayout :
    (1 ≤ ([0x41] : Bytes).length ∧ ([0x41] : Bytes).length ≤ 128) ∧
    (1 ≤ (List.replicate 1024 (0x1A : Byte)).length ∧ (List.replicate 1024 (0x1A : Byte)).length ≤ 1024) := by
  simp only [List.length_replicate]
  decide
theorem witness_PadThenTrimGivesTheChunkBack :
    (1 ≤ ([0x41, 0x1A] : Bytes).length ∧ ([0x41, 0x1A] : Bytes).length < 1025) ∧
    (1 ≤ (List.replicate 1024 (0x55 : Byte)).length ∧ (List.replicate 1024 (0x55 : Byte)).length < 1025) := by
  simp only [List.length_replicate]
  decide
theorem witness_CodecOperations :
    hs.faulted = false ∧ hs.cfgFirstTagRule = some .wrapped8 ∧
    ({ hs with cfgFirstTagRule := some .firstOnly } : State).cfgFirstTagRule = some .firstOnly := ⟨rfl, rfl, rfl⟩
theorem witness_LegalAnswersAreTheDecodedOnes :
    legalAnswer (.rd .char) (.byte 0x01) = true ∧ legalAnswer (.rd .char) .sinkOk = false ∧
    legalAnswer .delay .elapsed = true ∧ legalAnswer (.src 1024 true) (.srcFail storageCodeZero) = true := by decide
theorem witness_StepRuns_answer :
    let s := feed (rx .hdr 1 .crc16 false) [.answer (.byte 0x01)]
    s.faulted = false ∧ s.inbox = .answer (.byte 0x01) :: [] ∧ s.req = some (.rd .char) ∧
    legalAnswer (.rd .char) (.byte 0x01) = true ∧ s.ph = some .hdr ∧
    decode Codes.default (.answerAt .hdr (.byte 0x01)) = .ok .rxHdrSoh := by decide
theorem witness_StepRuns_start :
    (feed State.reset [.startRx (cfg 3 3 .crc16)]).faulted = false ∧
    (feed State.reset [.startRx (cfg 3 3 .crc16)]).inbox = .startRx (cfg 3 3 .crc16) :: [] ∧
    (feed State.reset [.startTx (cfg 3 3 .crc16)]).inbox = .startTx (cfg 3 3 .crc16) :: [] := ⟨rfl, rfl, rfl⟩
theorem witness_IllegalAnswers_wrong_kind :
    let s := feed (rx .hdr 1 .crc16 false) [.answer .sinkOk]
    s.faulted = false ∧ s.inbox = .answer .sinkOk :: [] ∧ ∀ q, s.req = some q → legalAnswer q .sinkOk = false :=
  ⟨rfl, rfl, fun q h => by cases h; rfl⟩
theorem witness_IllegalAnswers_no_request :
    let s := feed State.reset [.answer .timeout]
    s.faulted = false ∧ s.inbox = .answer .timeout :: [] ∧ ∀ q, s.req = some q → legalAnswer q .timeout = false :=
  ⟨rfl, rfl, fun q h => by cases h⟩
theorem witness_NoEventWaits : State.reset.faulted = false ∧ State.reset.inbox = [] := ⟨rfl, rfl⟩
theorem witness_EveryStepKeepsTheInvariant :
    (∃ t, Inv State.reset ∧ step State.reset = .next t) ∧
    (∃ t, Inv (feed dataWait [.answer (.byte 0x43)]) ∧ step (feed dataWait [.answer (.byte 0x43)]) = .next t) ∧
    (∃ t, Inv (feed (tx .resp 3 1) [.answer (.byte 0x06)]) ∧
      step (feed (tx .resp 3 1) [.answer (.byte 0x06)]) = .next t) ∧
    (∃ t, Inv (feed cancelled [.startTx (cfg 1 1 .crc16)]) ∧
      step (feed cancelled [.startTx (cfg 1 1 .crc16)]) = .next t) :=
  ⟨⟨_, inv_reset, rfl⟩, ⟨_, inv_feed _ inv_data_wait, rfl⟩, ⟨_, inv_feed _ inv_tx_resp, rfl⟩,
    ⟨_, inv_feed _ inv_cancelled, rfl⟩⟩
theorem witness_ContractKeeping :
    (Inv (feed dataWait [.answer (.byte 0x43)]) ∧ (feed dataWait [.answer (.byte 0x43)]).faulted = false ∧
      legalEvent (feed dataWait [.answer (.byte 0x43)]) (.answer (.byte 0x43)) = true) ∧
    (Inv (feed cancelled [.startRx (cfg 1 1 .crc16)]) ∧ (feed cancelled [.startRx (cfg 1 1 .crc16)]).faulted = false ∧
      legalEvent (feed cancelled [.startRx (cfg 1 1 .crc16)]) (.startRx (cfg 1 1 .crc16)) = true) :=
  ⟨⟨inv_feed _ inv_data_wait, rfl, rfl⟩, inv_feed _ inv_cancelled, rfl, rfl⟩
theorem witness_StepStopsOnlyWhenFaulted :
    Inv (cancelled.raise .badAnswer) ∧ step (cancelled.raise .badAnswer) = .fault .engineFaulted :=
  ⟨⟨rfl, rfl, rfl, by decide, fun h => nomatch h⟩, rfl⟩
theorem witness_Start :
    State.reset.faulted = false ∧ State.reset.busy = false ∧ 1 ≤ (cfg 1 1 .crc16).retryMax ∧
    1 ≤ (cfg 1 1 .crc16).txRetryMax := by decide
theorem witness_ModelFaults :
    ((rx .hdr 1 .crc16 false).faulted = false ∧ (rx .hdr 1 .crc16 false).busy = true) ∧
    (State.reset.busy = false ∧ (cfg 0 1 .crc16).retryMax = 0) ∧
    (State.reset.busy = false ∧ (cfg 1 0 .crc16).txRetryMax = 0) := by decide
theorem witness_SettleElapsed :
    (rx .settle 1 .crc16 false).faulted = false ∧ (rx .settle 1 .crc16 false).mode = some .crc16 ∧
    (rx .settle 1 .checksum false).mode = some .checksum := ⟨rfl, rfl, rfl⟩

/-- A receiver at payload byte `i` of `p`. -/
def atByte (i p : Nat) (m : Mode) : State := { rx .data 3 m false with psize := some p, idx := some i }

theorem witness_PayloadByte :
    ((atByte 1023 1024 .crc16).faulted = false ∧ (atByte 1023 1024 .crc16).idx = some 1023 ∧
      (atByte 1023 1024 .crc16).psize = some 1024 ∧ (atByte 1023 1024 .crc16).mode = some .crc16) ∧
    ((atByte 0 128 .checksum).idx = some 0 ∧ (atByte 0 128 .checksum).psize = some 128 ∧
      (atByte 0 128 .checksum).mode = some .checksum) := ⟨⟨rfl, rfl, rfl, rfl⟩, rfl, rfl, rfl⟩
theorem witness_CheckByte :
    let s : State := { lastChk 128 3 .crc16 false 0xFE with cidx := some 0, chkbuf := [] }
    s.faulted = false ∧ s.cidx = some 0 ∧ s.chklen = some 2 ∧ 0 + 1 ≠ 2 := ⟨rfl, rfl, rfl, by decide⟩

theorem zeros_read (k p a : Nat) (h : a < p) : Memory.read (zeros k p) (k + a) = some 0 := by
  induction p generalizing k a with
  | zero => omega
  | succ p ih =>
    rcases a with _ | a
    · simp [zeros, Memory.read]
    · have := ih (k + 1) a (by omega)
      rw [show k + (a + 1) = k + 1 + a by omega]
      rw [zeros, Memory.read, if_neg (by omega)]
      exact this
theorem zeros_slice (p : Nat) : Memory.slice (zeros 0 p) 0 p = some (List.replicate p 0) := by
  have := Memory.slice_eq (m := zeros 0 p) (a := 0) (bs := List.replicate p 0) fun i hi => by
    rw [List.length_replicate] at hi
    rw [zeros_read 0 p i hi]
    simp [hi]
  rwa [List.length_replicate] at this
theorem zeros_crc (p : Nat) : crc16 (List.replicate p 0x00#8) 0x0000#16 = 0x0000#16 := by
  induction p with
  | zero => rfl
  | succ p ih => rw [List.replicate_succ, crc16_cons, show crc16Update 0x0000#16 0x00#8 = 0x0000#16 by decide, ih]
theorem zeros_cksum (p : Nat) : cksum (List.replicate p 0x00#8) = 0x00#8 := by
  unfold cksum
  induction p with
  | zero => rfl
  | succ p ih => rw [List.replicate_succ, List.foldl_cons, show (0 : Byte) + 0x00#8 = 0 by decide]; exact ih
theorem zeros_chk (p : Nat) (m : Mode) :
    chkBytes (List.replicate p 0x00#8) m = List.replicate (checkLen m) 0x00#8 ∧
    Expected.chkField (List.replicate p 0x00#8) m = List.replicate (checkLen m) 0x00#8 := by
  cases m <;> simp [chkBytes, Expected.chkField, checkLen, Config.crcSeed, zeros_crc, zeros_cksum, hiByte, loByte]
/-- What the evaluation of `lastChk` reads, at both packet sizes, both modes, with any budget and complement byte. -/
theorem witness_lastChk (p r : Nat) (m : Mode) (set : Bool) (c : Byte) :
    let s := lastChk p r m set c
    s.faulted = false ∧ s.role = .rx ∧ s.chklen = some (checkLen m) ∧ s.rblk = some 1 ∧ s.rcblk = some c ∧ s.psize = some p ∧
    Memory.slice s.pbuf 0 p = some (List.replicate p 0) ∧ s.mode = some m ∧ s.retry = some r ∧
    s.cfgRetryMax = some 3 ∧ s.cfgRxText = some false ∧ s.blkset = some set :=
  ⟨rfl, rfl, rfl, rfl, rfl, rfl, zeros_slice p, rfl, rfl, rfl, rfl, rfl⟩
theorem witness_lastChk_field (p r : Nat) (set : Bool) (c v : Byte) :
    ((lastChk p r .crc16 set c).cidx = some 1 ∧
      Memory.slice (Memory.write (lastChk p r .crc16 set c).chkbuf 1 v) 0 (1 + 1) = some [0, v]) ∧
    ((lastChk p r .checksum set c).cidx = some 0 ∧
      Memory.slice (Memory.write (lastChk p r .checksum set c).chkbuf 0 v) 0 (0 + 1) = some [v]) :=
  ⟨⟨rfl, rfl⟩, rfl, rfl⟩
/-- The last disjunction of BadPacketIsAFailedAttempt: a check byte 1, and a complement byte 1 for block 1. -/
theorem witness_BadPacket (p : Nat) :
    [0x00#8, 0x01#8] ≠ Expected.chkField (List.replicate p 0x00#8) .crc16 ∧
    [0x01#8] ≠ Expected.chkField (List.replicate p 0x00#8) .checksum ∧ (1 : Byte) ≠ ~~~(1 : Byte) := by
  rw [(zeros_chk p _).2, (zeros_chk p _).2]
  decide
/-- The right complement byte and the right field, in both modes. -/
theorem witness_GoodPacket (p : Nat) :
    [0x00#8, 0x00#8] = Expected.chkField (List.replicate p 0x00#8) .crc16 ∧
    [0x00#8] = Expected.chkField (List.replicate p 0x00#8) .checksum ∧ (0xFE : Byte) = ~~~(1 : Byte) := by
  rw [(zeros_chk p _).2, (zeros_chk p _).2]
  decide
theorem witness_FailedAttempts (r : Nat) (m : Mode) (set : Bool) :
    let s := rx .hdr r m set
    s.faulted = false ∧ s.role = .rx ∧ s.retry = some r ∧ s.cfgRetryMax = some 3 ∧ s.blkset = some set ∧
    s.mode = some m := ⟨rfl, rfl, rfl, rfl, rfl, rfl⟩
theorem witness_SinkAnswers :
    sinkWait.faulted = false ∧ sinkWait.role = .rx ∧ sinkWait.l = some 2 ∧ sinkWait.bytesWidth = none ∧
    ({ sinkWait with bytesWidth := some 8 } : State).bytesWidth = some 8 := ⟨rfl, rfl, rfl, rfl, rfl⟩
theorem witness_StartByteSelects :
    (hs.faulted = false ∧ hs.cfgFirstTagRule = some .wrapped8) ∧
    (({ hs with cfgFirstTagRule := some .firstOnly } : State).cfgFirstTagRule = some .firstOnly ∧
      ({ hs with cfgFirstTagRule := some .firstOnly } : State).srcAsked = false) := ⟨⟨rfl, rfl⟩, rfl, rfl⟩
theorem witness_ChunkIsFramed :
    ((tx .src 1 1).faulted = false ∧ (tx .src 1 1).blk = some 1 ∧ (tx .src 1 1).mode = some .crc16 ∧
      (tx .src 1 1).cfgTxRetryMax = some 3) ∧
    ({ tx .src 1 1 with mode := some .checksum } : State).mode = some .checksum ∧
    (List.replicate 128 (0 : Byte)).length = 128 ∧ (List.replicate 129 (0 : Byte)).length = 129 ∧
    (List.replicate 1024 (0 : Byte)).length = 1024 := by
  exact ⟨⟨rfl, rfl, rfl, rfl⟩, rfl, List.length_replicate, List.length_replicate, List.length_replicate⟩
theorem witness_AckAdvances :
    ((tx .resp 3 255).faulted = false ∧ (tx .resp 3 255).n = some 1 ∧ (tx .resp 3 255).blk = some 255 ∧
      (tx .resp 3 255).cfgFirstTagRule = some .wrapped8) ∧
    ({ tx .resp 3 255 with cfgFirstTagRule := some .firstOnly } : State).cfgFirstTagRule = some .firstOnly :=
  ⟨⟨rfl, rfl, rfl, rfl⟩, rfl⟩
theorem witness_OtherResponses (r : Nat) :
    (tx .resp r 1).faulted = false ∧ (tx .resp r 1).role = .tx ∧ (tx .resp r 1).tretry = some r ∧
    (tx .resp r 1).frame = some (encodeFrame 0x01 1 (pad [0x41] 128) .crc16) ∧
    (tx .resp r 1).flen = some (encodeFrame 0x01 1 (pad [0x41] 128) .crc16).length := by
  refine ⟨rfl, rfl, rfl, rfl, ?_⟩
  rw [encodeFrame_length, pad_length (by decide)]
  rfl

theorem witness_ReceiverStepFrame :
    (∃ t, receiverStep (.rxData 0x41) = true ∧ exec (.rxData 0x41) dataWait = .next t ∧ dataWait.idx = some 2 ∧
      dataWait.role = .rx ∧ t.ph ≠ some .term) ∧
    (∃ t, receiverStep (.rxChk 0) = true ∧ exec (.rxChk 0) (rx .chk 3 .crc16 false) = .next t) :=
  ⟨⟨_, rfl, rfl, rfl, rfl, nofun⟩, _, rfl, rfl⟩
theorem witness_SenderStepFrame :
    ∃ t, senderStep .txRespAck = true ∧ exec .txRespAck (tx .resp 3 1) = .next t ∧ (tx .resp 3 1).role ≠ .rx ∧
      t.ph ≠ some .term := ⟨_, rfl, rfl, nofun, nofun⟩
theorem witness_ExecNext :
    (∃ t, exec (.hostWr 0x43) State.reset = .next t) ∧ (∃ t, exec .hostDelay State.reset = .next t) ∧
    (∃ t, exec (.hostStartTx (cfg 1 1 .crc16)) State.reset = .next t) := ⟨⟨_, rfl⟩, ⟨_, rfl⟩, _, rfl⟩
theorem witness_OnlyOkResult :
    ∃ t, exec .txEotAck (tx .eot 3 1) = .next t ∧ t.result = some .ok ∧ (tx .eot 3 1).result ≠ some .ok :=
  ⟨_, rfl, rfl, nofun⟩
theorem witness_StepNext_failure :
    ∃ t, step (feed (rx .hdr 1 .crc16 true) [.answer .timeout]) = .next t ∧ t.lastError = some .timeout :=
  ⟨_, rfl, rfl⟩
theorem witness_BytesCounts :
    (∃ t, exec .rxSinkOk sinkWait = .next t ∧ t.bytes = 2) ∧
    (∃ t, exec .txRespAck (tx .resp 3 1) = .next t ∧ t.bytes = 1) := ⟨⟨_, rfl, rfl⟩, _, rfl, rfl⟩
theorem witness_ReceiverModeOnlyFallsBack :
    let s := feed (rx .hdr 1 .crc16 false) [.answer .timeout]
    Inv s ∧ s.busy = true ∧ s.role = .rx ∧ ∃ t, step s = .next t ∧ t.mode = some .checksum :=
  ⟨inv_feed _ (inv_rx_hdr _ _), rfl, rfl, _, rfl, rfl⟩
theorem witness_AckFollows_sink :
    let s := feed sinkWait [.answer .sinkOk]
    Inv s ∧ s.busy = true ∧ s.role = .rx ∧ ∃ t, step s = .next t ∧ t.out = s.out ++ [.wr 0x06] :=
  ⟨inv_feed _ inv_sink_wait, rfl, rfl, _, rfl, rfl⟩
theorem witness_AckFollows_eot :
    let s := feed (rx .hdr 1 .crc16 true) [.answer (.byte 0x04)]
    Inv s ∧ s.busy = true ∧ s.role = .rx ∧ ∃ t, step s = .next t ∧ t.out = s.out ++ [.wr 0x06] :=
  ⟨inv_feed _ (inv_rx_hdr _ _), rfl, rfl, _, rfl, rfl⟩
theorem witness_SourceIsAsked_start :
    let s := feed hs [.answer (.byte 0x43)]
    Inv s ∧ s.busy = true ∧ s.role = .tx ∧ ∃ t, step s = .next t ∧ t.faulted = false ∧ t.req = some (.src 1024 true) :=
  ⟨inv_feed _ inv_hs, rfl, rfl, _, rfl, rfl, rfl⟩
theorem witness_SourceIsAsked_ack :
    let s := feed (tx .resp 3 1) [.answer (.byte 0x06)]
    Inv s ∧ s.busy = true ∧ s.role = .tx ∧ ∃ t, step s = .next t ∧ t.faulted = false ∧ t.req = some (.src 1024 false) :=
  ⟨inv_feed _ inv_tx_resp, rfl, rfl, _, rfl, rfl, rfl⟩
theorem witness_SilentPeer (m : Mode) :
    let c := cfg 1 1 m
    let s := feed State.reset (.startRx c :: .answer .elapsed :: List.replicate 2 (.answer .timeout))
    s.faulted = false ∧ s.busy = false ∧ 1 ≤ c.retryMax ∧ 1 ≤ c.txRetryMax ∧ c.rxInitMode = m ∧
    s.inbox = .startRx c :: .answer .elapsed :: List.replicate (2 * c.retryMax) (.answer .timeout) :=
  ⟨rfl, rfl, Nat.le_refl 1, Nat.le_refl 1, rfl, rfl⟩
theorem witness_FifteenHundredBytes (m : Mode) :
    let c := cfg 1 2 m
    1 ≤ c.retryMax ∧ 2 ≤ c.txRetryMax ∧ (List.replicate 1024 (0x41 : Byte)).length = 1024 ∧
    (List.replicate 476 (0x42 : Byte)).length = 476 ∧
    (feed State.reset [.startTx c]).faulted = false ∧ (feed State.reset [.startTx c]).busy = false ∧
    (feed State.reset [.startTx c]).codes.distinct = true :=
  ⟨Nat.le_refl 1, Nat.le_refl 2, List.length_replicate, List.length_replicate, rfl, rfl, rfl⟩
theorem witness_ReceiverAccepts (m : Mode) (set : Bool) :
    let s := rx .hdr 1 m set
    Inv s ∧ s.faulted = false ∧ s.ph = some .hdr ∧ s.mode = some m ∧ s.cfgRxText = some false ∧
    (List.replicate 128 (0 : Byte)).length = 128 ∧ (List.replicate 1024 (0 : Byte)).length = 1024 :=
  ⟨inv_rx_hdr _ _, rfl, rfl, rfl, rfl, List.length_replicate, List.length_replicate⟩

end Sys2Proof.Tests
end

section
/-! The encoding of data packets and the decoding of bytes by position (30_encoding.md R82, R88 to R90; 40_codec.md R117,
R120, R121). -/

namespace Sys2Proof.Machine

open Sys2Proof.Expected

/-! ### The verification field (R117) -/

theorem hiByte_eq_ofNat_div (w : Word) : hiByte w = BitVec.ofNat 8 (w.toNat / 256) := by
  apply BitVec.eq_of_toNat_eq
  simp [hiByte, Nat.shiftRight_eq_div_pow]

theorem loByte_eq_ofNat_mod (w : Word) : loByte w = BitVec.ofNat 8 (w.toNat % 256) := by
  apply BitVec.eq_of_toNat_eq
  simp [loByte]

theorem chkBytes_eq_chkField (payload : Bytes) (m : Mode) : chkBytes payload m = chkField payload m := by
  cases m with
  | checksum => rfl
  | crc16 => simp only [chkBytes, chkField, hiByte_eq_ofNat_div, loByte_eq_ofNat_mod, Config.crcSeed]

/-! ### The padded chunk (R120) -/

@[simp] theorem pad_take_length (data : Bytes) (p : Nat) : (pad data p).take data.length = data :=
  List.take_left

theorem pad_getElem?_fill {data : Bytes} {p i : Nat} (hlo : data.length ≤ i) (hhi : i < p) :
    (pad data p)[i]? = some Config.fill := by
  rw [pad, List.getElem?_append_right hlo, List.getElem?_replicate_of_lt (by omega)]

/-! ### The fields of a data packet by offset (R121) -/

section
variable (hdr b : Byte) (payload : Bytes) (m : Mode)

@[simp] theorem encodeFrame_getElem?_zero : (encodeFrame hdr b payload m)[0]? = some hdr := rfl

@[simp] theorem encodeFrame_getElem?_one : (encodeFrame hdr b payload m)[1]? = some b := rfl

@[simp] theorem encodeFrame_getElem?_two : (encodeFrame hdr b payload m)[2]? = some (~~~b) := rfl

@[simp] theorem encodeFrame_drop_three : (encodeFrame hdr b payload m).drop 3 = payload ++ chkBytes payload m := rfl

theorem encodeFrame_payload : ((encodeFrame hdr b payload m).drop 3).take payload.length = payload := by
  rw [encodeFrame_drop_three, List.take_left]

theorem encodeFrame_check :
    (encodeFrame hdr b payload m).drop (3 + payload.length) = chkBytes payload m := by
  rw [← List.drop_drop, encodeFrame_drop_three, List.drop_left]

end

end Sys2Proof.Machine

namespace Sys2Proof

open Sys2Proof.Machine

/-! ### What the decoder makes of a byte at each position that reads one (R88 to R90) -/

section
variable (codes : Codes) (b : Byte)

@[simp] theorem decode_hdr_byte : decode codes (.answerAt .hdr (.byte b)) = .ok (decodeHeader codes b) := rfl

@[simp] theorem decode_bnum_byte : decode codes (.answerAt .bnum (.byte b)) = .ok (.rxBnum b) := rfl

@[simp] theorem decode_bcmp_byte : decode codes (.answerAt .bcmp (.byte b)) = .ok (.rxBcmp b) := rfl

@[simp] theorem decode_data_byte : decode codes (.answerAt .data (.byte b)) = .ok (.rxData b) := rfl

@[simp] theorem decode_chk_byte : decode codes (.answerAt .chk (.byte b)) = .ok (.rxChk b) := rfl

@[simp] theorem decode_hs_byte : decode codes (.answerAt .hs (.byte b)) = .ok (decodeHandshake codes b) := rfl

@[simp] theorem decode_resp_byte : decode codes (.answerAt .resp (.byte b)) = .ok (decodeResponse codes b) := rfl

@[simp] theorem decode_respCan_byte :
    decode codes (.answerAt .respCan (.byte b)) = .ok (decodeResponseCan codes b) := rfl

@[simp] theorem decode_eot_byte : decode codes (.answerAt .eot (.byte b)) = .ok (decodeEot codes b) := rfl

@[simp] theorem decode_eotCan_byte : decode codes (.answerAt .eotCan (.byte b)) = .ok (decodeEotCan codes b) := rfl

end

/-! ### The statements -/

/-- Settles O7. The offsets of R121's fields hold for every payload; the padded chunk only supplies its length `p`, so
the header byte the packet begins with does not matter. -/
theorem dataPacketLayout : Obligations.DataPacketLayout := by
  intro codes hdr b data p m _ hle _
  have hlen : (pad data p).length = p := pad_length hle
  have hpayload := encodeFrame_payload hdr b (pad data p) m
  have hcheck := encodeFrame_check hdr b (pad data p) m
  rw [hlen] at hpayload hcheck
  refine ⟨hlen, pad_take_length data p, fun i hlo hhi => pad_getElem?_fill hlo hhi, ?_,
    encodeFrame_getElem?_zero .., encodeFrame_getElem?_one .., encodeFrame_getElem?_two .., hpayload, ?_⟩
  · rw [encodeFrame_length, hlen]
    cases m <;> rfl
  · rw [hcheck, chkBytes_eq_chkField]

/-- Settles O11. The header position is the class table of `decodeHeader`; the other receive positions pass the byte on. -/
theorem receiverPositionsDecodeEveryByte : Obligations.ReceiverPositionsDecodeEveryByte := by
  intro codes b
  refine ⟨?_, decode_bnum_byte codes b, decode_bcmp_byte codes b, decode_data_byte codes b, decode_chk_byte codes b⟩
  rw [decode_hdr_byte, decodeHeader]

/-- Settles O12. Each of the sender's positions has its own table, whose last row takes every byte no other row names. -/
theorem senderPositionsDecodeEveryByte : Obligations.SenderPositionsDecodeEveryByte := by
  intro codes b
  refine ⟨?_, ?_, ?_, ?_, ?_⟩
  · rw [decode_hs_byte, decodeHandshake]
  · rw [decode_resp_byte, decodeResponse]
  · rw [decode_respCan_byte, decodeResponseCan]
  · rw [decode_eot_byte, decodeEot]
  · rw [decode_eotCan_byte, decodeEotCan]

end Sys2Proof
end

section
/-! The codec's computations: the CRC, the checksum, the verifier, the complement check, and padding against trimming
(30_encoding.md R86, R87; 40_codec.md R110 to R124). -/

namespace Sys2Proof.Machine

open Sys2Proof.Expected

/-! ### The CRC byte step against its loop (R110) -/

/-- A loop that ignores its index shifts the register once for each index. -/
theorem foldl_crcShift {α : Type} (ks : List α) (x : Word) :
    ks.foldl (fun x _ => crcShift x) x = crcShifts ks.length x := by
  induction ks generalizing x with
  | nil => rfl
  | cons _ ks ih => exact ih (crcShift x)

theorem crc16Update_eq_crcStep (crc : Word) (b : Byte) : crc16Update crc b = crcStep crc b :=
  (foldl_crcShift (List.range 8) _).symm

/-- A byte that leaves the register as it is does so however often it comes. -/
theorem crc16_replicate_of_fixed {b : Byte} {seed : Word} (h : crc16Update seed b = seed) (k : Nat) :
    crc16 (List.replicate k b) seed = seed := by
  induction k with
  | zero => rfl
  | succ k ih => rw [List.replicate_succ, crc16_cons, h, ih]

/-! ### The residue of the CRC (R112)

A byte entered when it equals the register's high byte clears that half, so no carry leaves bit 15 in the eight shifts
and they only move the low byte up. The register's own two bytes therefore clear it. -/

/-- Without a carry out of bit 15 the register only shifts. -/
theorem crcShift_of_no_carry {x : Word} (h : x.toNat < 2 ^ 15) : crcShift x = x <<< 1 := by
  have hbit : x.getLsbD 15 = false := Nat.testBit_lt_two_pow h
  rw [crcShift, hbit, if_neg Bool.false_ne_true]

theorem crcShifts_of_no_carry {k : Nat} {x : Word} (h : x.toNat * 2 ^ k < 2 ^ 16) : crcShifts k x = x <<< k := by
  induction k generalizing x with
  | zero => simp [crcShifts]
  | succ k ih =>
    rw [Nat.pow_succ', ← Nat.mul_assoc] at h
    have hlt : x.toNat * 2 < 2 ^ 16 := Nat.lt_of_le_of_lt (Nat.le_mul_of_pos_right _ (Nat.two_pow_pos k)) h
    have hshift : (x <<< 1).toNat = x.toNat * 2 := by
      rw [BitVec.toNat_shiftLeft, Nat.shiftLeft_eq, Nat.pow_one, Nat.mod_eq_of_lt hlt]
    rw [crcShifts, crcShift_of_no_carry (by omega), ih (hshift ▸ h), ← BitVec.shiftLeft_add, Nat.add_comm]

theorem xor_hiByte (c : Word) : c ^^^ ((hiByte c).setWidth 16 <<< 8) = (loByte c).setWidth 16 := by
  ext i hi
  by_cases h8 : i < 8
  · simp [hiByte, loByte, h8, BitVec.getLsbD_eq_getElem hi]
  · have hidx : 8 + (i - 8) = i := by omega
    simp [hiByte, loByte, h8, hidx, BitVec.getLsbD_eq_getElem hi, show i - 8 < 8 by omega]

theorem crc16Update_hiByte (c : Word) : crc16Update c (hiByte c) = (loByte c).setWidth 16 <<< 8 := by
  rw [crc16Update, xor_hiByte, crcShifts_of_no_carry]
  have hlt := (loByte c).isLt
  rw [BitVec.toNat_setWidth_of_le (by decide)]
  omega

theorem crc16_own_bytes (c : Word) : crc16 [hiByte c, loByte c] c = 0 := by
  rw [crc16_cons, crc16_cons, crc16_nil, crc16Update_hiByte, crc16Update, BitVec.xor_self]
  rfl

/-! ### The checksum (R113, R114) -/

theorem cksum_eq_sum (bytes : Bytes) : cksum bytes = bytes.sum := List.sum_eq_foldl.symm

theorem cksum_append (a b : Bytes) : cksum (a ++ b) = cksum a + cksum b := by
  simp only [cksum_eq_sum, List.sum_append]

theorem cksum_eq_ofNat_sum (bytes : Bytes) : cksum bytes = BitVec.ofNat 8 (bytes.map BitVec.toNat).sum := by
  rw [cksum_eq_sum]
  induction bytes with
  | nil => rfl
  | cons b bytes ih =>
    rw [List.map_cons, List.sum_cons, List.sum_cons, BitVec.ofNat_add, ← ih, BitVec.ofNat_toNat, BitVec.setWidth_eq]

theorem cksum_replicate (k : Nat) (b : Byte) : cksum (List.replicate k b) = BitVec.ofNat 8 (k * b.toNat) := by
  rw [cksum_eq_ofNat_sum, List.map_replicate, List.sum_replicate_nat]

/-! ### The verifier (R117) and the two received bytes of a CRC (R87) -/

@[simp] theorem hiByte_toNat (w : Word) : (hiByte w).toNat = w.toNat / 256 := by
  have := w.isLt
  rw [hiByte_eq_ofNat_div, BitVec.toNat_ofNat]
  omega

@[simp] theorem loByte_toNat (w : Word) : (loByte w).toNat = w.toNat % 256 := by
  rw [loByte_eq_ofNat_mod, BitVec.toNat_ofNat]
  omega

theorem bytes_eq_hiByte_loByte_iff (w : Word) (h l : Byte) :
    [h, l] = [hiByte w, loByte w] ↔ h.toNat * 256 + l.toNat = w.toNat := by
  have := l.isLt
  simp only [List.cons.injEq, and_true, ← BitVec.toNat_inj, hiByte_toNat, loByte_toNat]
  omega

theorem verify_eq_ok_iff (payload : Bytes) (m : Mode) (chk : Bytes) :
    verify payload m chk = .ok ↔ chk = chkBytes payload m := by
  simp [verify]

/-! ### The complement check (R119, R86) -/

theorem blkchk_iff (b c : Byte) : blkchk b c = true ↔ c = ~~~b := beq_iff_eq

theorem eq_not_iff_sum_eq_255 (b c : Byte) : c = ~~~b ↔ (b.toNat + c.toNat) % 256 = 255 := by
  have := b.isLt
  have := c.isLt
  rw [← BitVec.toNat_inj, BitVec.toNat_not]
  omega

/-! ### TRIM (R123), and PAD undone by it (R124) -/

/-- A byte that is fill makes the loop go on, any other byte stops it. -/
theorem trimLen_succ (payload : Bytes) (k : Nat) :
    trimLen payload (k + 1) = if payload[k]? = some Config.fill then trimLen payload k else k + 1 := rfl

theorem getElem?_of_trimLen_le {payload : Bytes} {k i : Nat} (hlo : trimLen payload k ≤ i) (hhi : i < k) :
    payload[i]? = some Config.fill := by
  induction k with
  | zero => omega
  | succ k ih =>
    rw [trimLen_succ] at hlo
    split at hlo
    · next hfill =>
      obtain rfl | hik := Nat.eq_or_lt_of_le (Nat.le_of_lt_succ hhi)
      · exact hfill
      · exact ih hlo hik
    · omega

theorem getElem?_ne_fill_of_trimLen {payload : Bytes} {k j : Nat} (h : trimLen payload k = j + 1) :
    payload[j]? ≠ some Config.fill := by
  induction k with
  | zero => cases h
  | succ k ih =>
    rw [trimLen_succ] at h
    split at h
    · exact ih h
    · next hne =>
      obtain rfl : k = j := Nat.succ.inj h
      exact hne

theorem take_trimLen {payload : Bytes} {k : Nat} (hk : k ≤ payload.length) :
    payload.take (trimLen payload k) = (payload.take k).rdropWhile (fun b => b == Config.fill) := by
  induction k with
  | zero => rfl
  | succ k ih =>
    rw [trimLen_succ, List.take_succ_eq_append_getElem hk, List.rdropWhile_concat, List.getElem?_eq_getElem hk]
    by_cases hfill : payload[k] = Config.fill
    · simp [hfill, ih (Nat.le_of_succ_le hk)]
    · simp [hfill]

theorem take_trim (payload : Bytes) :
    payload.take (trim payload) = payload.rdropWhile (fun b => b == Config.fill) := by
  rw [trim, take_trimLen (Nat.le_refl _), List.take_length]

theorem rdropWhile_append_replicate (d : Bytes) (n : Nat) (b : Byte) :
    (d ++ List.replicate n b).rdropWhile (fun x => x == b) = d.rdropWhile (fun x => x == b) := by
  induction n with
  | zero => rw [List.replicate_zero, List.append_nil]
  | succ n ih =>
    rw [List.replicate_succ', ← List.append_assoc, List.rdropWhile_concat, if_pos (beq_self_eq_true b), ih]

theorem take_trim_pad (d : Bytes) (p : Nat) :
    (pad d p).take (trim (pad d p)) = d.rdropWhile (fun b => b == Config.fill) := by
  rw [take_trim, pad, rdropWhile_append_replicate]

theorem rdropWhile_eq_self_iff_getLast? (d : Bytes) (b : Byte) :
    d.rdropWhile (fun x => x == b) = d ↔ d.getLast? ≠ some b := by
  rw [List.rdropWhile_eq_self_iff]
  by_cases hd : d = []
  · simp [hd]
  · simp [hd, List.getLast?_eq_some_getLast hd]

theorem sizeSelect_packet {codes : Codes} {n : Fin 1025} (h : 1 ≤ n.val) :
    ∃ hdr p, sizeSelect codes n = .packet hdr p := by
  rw [sizeSelect, if_neg (by omega)]
  split
  · exact ⟨_, _, rfl⟩
  · exact ⟨_, _, rfl⟩

end Sys2Proof.Machine

namespace Sys2Proof

open Sys2Proof.Machine Sys2Proof.Expected

/-! ### The statements -/

/-- Settles O2. The residue law is the split law, with the register's own two bytes clearing it. -/
theorem crcSplitSerialAndResidueLaws : Obligations.CrcSplitSerialAndResidueLaws := by
  refine ⟨crc16_append, fun _ => rfl, fun a => ?_⟩
  rw [← chkBytes_eq_chkField, crc16_append]
  exact crc16_own_bytes (crc16 a 0)

/-- Settles O3. The byte-serial form is the split law at one byte. -/
theorem checksumIsTheByteSum : Obligations.ChecksumIsTheByteSum := by
  refine ⟨cksum_eq_ofNat_sum, cksum_append, fun bytes b => ?_, rfl, by decide, ?_, ?_, by decide⟩
  · rw [cksum_append, show cksum [b] = b from BitVec.zero_add b]
  · rw [cksum_replicate]
    rfl
  · rw [cksum_replicate]
    rfl

/-- Settles O8, by the loop's exits: it goes on only past fill, and stops above zero only at a byte that is not fill. -/
theorem trimDropsTheTrailingFillRun : Obligations.TrimDropsTheTrailingFillRun := fun payload =>
  ⟨trim_le payload, fun _ hlo hhi => getElem?_of_trimLen_le hlo hhi, fun _ h => getElem?_ne_fill_of_trimLen h⟩

/-- Settles O9. The fill that PAD adds joins the chunk's own trailing run, and TRIM drops both. -/
theorem padThenTrimGivesTheChunkBack : Obligations.PadThenTrimGivesTheChunkBack := by
  intro codes d hd hpos
  obtain ⟨hdr, p, hsel⟩ := sizeSelect_packet (codes := codes) (n := ⟨d.length, hd⟩) hpos
  refine ⟨hdr, p, hsel, take_trim_pad d p, ?_⟩
  rw [take_trim_pad]
  exact rdropWhile_eq_self_iff_getLast? d Config.fill

/-- Settles O1. Zero bytes from 0 leave the register at 0 because one does. -/
theorem crcFollowsItsPseudocode : Obligations.CrcFollowsItsPseudocode := by
  have hstep : crc16Update = crcStep := funext₂ crc16Update_eq_crcStep
  refine ⟨crc16Update_eq_crcStep, fun bytes seed => ?_, crc16_nil, crc16_replicate_of_fixed (by decide), ?_⟩
  · rw [crc16, hstep]
  · decide +kernel

/-- Settles O4. The verifier compares with the field, whose CRC bytes are the word's quotient and remainder by 256. -/
theorem verifierComparesHighByteFirst : Obligations.VerifierComparesHighByteFirst := by
  refine ⟨chkBytes_eq_chkField, fun payload m chk => ?_, fun payload v => ?_, fun payload h l => ?_⟩
  · rw [verify, chkBytes_eq_chkField]
  · rw [verify_eq_ok_iff]
    exact List.singleton_inj
  · rw [verify_eq_ok_iff]
    exact bytes_eq_hiByte_loByte_iff (crc16 payload 0) h l

/-- Settles O5, by the value 255 - b of a byte's complement. -/
theorem complementCheckIsSumTo255 : Obligations.ComplementCheckIsSumTo255 :=
  ⟨blkchk_iff, fun b c => (blkchk_iff b c).trans (eq_not_iff_sum_eq_255 b c)⟩

/-- Settles O6. The tables are the definitions, with the sizes 128 and 1024 written out. -/
theorem sizeLengthAndStartByteTables : Obligations.SizeLengthAndStartByteTables :=
  ⟨fun _ _ => rfl, rfl, rfl, fun _ _ => rfl, fun _ => rfl, fun _ => rfl⟩

end Sys2Proof
end

section
/-! The receiver's rules (41_receiver.md R141 to R164): its shared operations as equations, and each of its steps as the
next state it answers. -/

namespace Sys2Proof.Machine

open Sys2Proof.Expected

/-! ### The reads and writes that can fault, where they do not -/

theorem State.need_of_eq {α : Type} {s : State} {r : Option α} {v : α} (h : r = some v) (k : α → Step) :
    s.need r k = k v := by
  rw [h, State.need_some]

theorem State.needSlice_of_slice {s : State} {size len : Nat} {mem : List Host.Cell} {bs : Bytes} (hle : len ≤ size)
    (hbs : Memory.slice mem 0 len = some bs) (k : Bytes → Step) : s.needSlice size mem len k = k bs := by
  rw [State.needSlice, if_pos hle, State.need_of_eq hbs]

theorem storeByte_of_lt {size a : Nat} (h : a < size) (mem : List Host.Cell) (b : Byte) (k : List Host.Cell → Step) :
    storeByte size mem a b k = k (Memory.write mem a b) := if_pos h

/-! ### Requests, the bytes counter, and the end of a session -/

/-- Only a request to the source is remembered for FIRST_TAG. -/
theorem State.request_of_not_src {q : Request} (h : isSrc q = false) (s : State) :
    s.request q = { s with req := some q } := by
  rw [State.request_eq, h, Bool.or_false]

theorem wrapBytes_eq (width : Option Nat) (x : Nat) :
    wrapBytes width x = match width with | none => x | some w => x % 2 ^ w := by
  cases width <;> rfl

theorem State.terminate_eq_rxEnded {s : State} {t : EndState} {x : RxSt} (hrole : s.role = .rx)
    (hx : rxStateOf t = some x) (code : Result) :
    s.terminate t code =
      rxEnded x code (if code = .ok ∨ code = .endOfTransfer then s.lastError else some code) s := by
  rw [State.terminate_rx_eq hrole, hx, rxEnded]

/-! ### FAIL_ATTEMPT and its procedures (R159 to R162) -/

theorem fallbackOk_eq {s : State} {set : Bool} {m : Mode} (hset : s.blkset = some set) (hm : s.mode = some m)
    (cause : Result) (k : Bool → Step) :
    fallbackOk cause s k =
      k (decide ((cause = .timeout ∨ cause = .framingError) ∧ set = false ∧ m = .crc16)) := by
  by_cases hc : cause = .timeout ∨ cause = .framingError
  · cases set <;> simp [fallbackOk, hc, hset, hm]
  · simp [fallbackOk, hc]

theorem fallback_eq {s : State} {k : Nat} (hk : s.cfgRetryMax = some k) :
    fallback s = .next
      { s with
        mode := some .checksum, retry := some k, out := s.out ++ [.wr s.codes.nak], ph := some .hdr,
        req := some (.rd .char) } := by
  rw [fallback, State.need_of_eq hk, State.awaitHeader_eq]
  rfl

theorem retryResponse_eq {s : State} {set : Bool} {m : Mode} (hset : s.blkset = some set) (hm : s.mode = some m)
    (cause : Result) :
    retryResponse cause s = .next
      { s with
        out := s.out ++ [.wr (if cause ≠ .crcError ∧ set = false ∧ m = .crc16 then s.codes.crq else s.codes.nak)],
        ph := some .hdr, req := some (.rd .char) } := by
  by_cases hc : cause = .crcError
  · simp [retryResponse, hc, State.awaitHeader_eq, State.emit_eq]
  · cases set
    · cases m <;> simp [retryResponse, hc, hset, hm, State.awaitHeader_eq, State.emit_eq, startByte]
    · simp [retryResponse, hc, hset, State.awaitHeader_eq, State.emit_eq]

/-- FAIL_ATTEMPT, for a cause that is an error, is the failed attempt of R159 to R162. -/
theorem failAttempt_eq {s : State} {cause : Result} {r k : Nat} {set : Bool} {m : Mode}
    (hcause : ¬(cause = .ok ∨ cause = .endOfTransfer)) (hrole : s.role = .rx) (hr : s.retry = some r) (hpos : 1 ≤ r)
    (hk : s.cfgRetryMax = some k) (hset : s.blkset = some set) (hm : s.mode = some m) :
    failAttempt cause s = .next (failedAttempt cause r k set m s) := by
  rw [failAttempt, State.need_of_eq hr, afterFailure, failedAttempt]
  by_cases h1 : r = 1
  · rw [if_pos (by omega), if_pos h1, fallbackOk_eq (by exact hset) (by exact hm)]
    by_cases hfall : (cause = .timeout ∨ cause = .framingError) ∧ set = false ∧ m = .crc16
    · rw [decide_eq_true hfall, if_pos rfl, if_pos hfall, fallback_eq (by exact hk)]
      rfl
    · rw [decide_eq_false hfall, if_neg Bool.false_ne_true, if_neg hfall, exhaust,
        State.terminate_eq_rxEnded (by exact hrole) rfl, if_neg hcause, h1]
      rfl
  · rw [if_neg (by omega), if_neg h1, retryResponse_eq (by exact hset) (by exact hm)]
    rfl

/-! ### The evaluation of a good packet (R154 to R156) -/

theorem handToSink_eq {s : State} {p : Nat} {text : Bool} {payload : Bytes} (htext : s.cfgRxText = some text)
    (hp : s.psize = some p) (hle : p ≤ Config.pbufSize) (hpayload : Memory.slice s.pbuf 0 p = some payload) (b : Byte) :
    handToSink b s = .next
      { s with
        l := some (if text then trim payload else p), ph := some .sink,
        req := some (.sink b (payload.take (if text then trim payload else p))) } := by
  rw [handToSink, State.need_of_eq htext, State.need_of_eq hp, State.needSlice_of_slice hle hpayload]
  dsimp only
  rw [State.request_of_not_src rfl]
  rfl

theorem accept_eq {s : State} {k p : Nat} {b : Byte} {text : Bool} {payload : Bytes} (hk : s.cfgRetryMax = some k)
    (hb : s.rblk = some b) (htext : s.cfgRxText = some text) (hp : s.psize = some p) (hle : p ≤ Config.pbufSize)
    (hpayload : Memory.slice s.pbuf 0 p = some payload) :
    accept s = .next
      { s with
        status := some .ok, retry := some k, blk := some b, blkset := some true, rxst := some .receiving,
        l := some (if text then trim payload else p), ph := some .sink,
        req := some (.sink b (payload.take (if text then trim payload else p))) } := by
  rw [accept, State.need_of_eq hk, State.need_of_eq hb,
    handToSink_eq (text := text) (by simpa using htext) (by simpa using hp) hle (by simpa using hpayload)]
  simp

/-- EVALUATE accepts a packet whose complement and verification field are right. -/
theorem evaluate_eq_accept {s : State} {b : Byte} {p c : Nat} {m : Mode} {payload : Bytes} (hb : s.rblk = some b)
    (hcompl : s.rcblk = some (~~~b)) (hp : s.psize = some p) (hple : p ≤ Config.pbufSize)
    (hpayload : Memory.slice s.pbuf 0 p = some payload) (hm : s.mode = some m) (hc : s.chklen = some c)
    (hcle : c ≤ Config.chkbufSize) (hchk : Memory.slice s.chkbuf 0 c = some (chkBytes payload m)) :
    evaluate s = accept s := by
  have hverify : verify payload m (chkBytes payload m) = .ok := (verify_eq_ok_iff ..).2 rfl
  rw [evaluate, State.need_of_eq hb, State.need_of_eq hcompl, if_pos ((blkchk_iff ..).2 rfl), verifyPacket,
    State.need_of_eq hp, State.needSlice_of_slice hple hpayload, State.need_of_eq hm, State.need_of_eq hc,
    State.needSlice_of_slice hcle hchk, hverify, if_neg (by decide)]

/-! ### The receiver's instructions in a live engine -/

section
variable {s : State} (hf : s.faulted = false)
include hf

theorem exec_rxHdrOther_of_live (b : Byte) : exec (.rxHdrOther b) s = failAttempt .framingError s :=
  live_of_running hf _

theorem exec_rxHdrTimeout_of_live : exec .rxHdrTimeout s = failAttempt .timeout s := live_of_running hf _

theorem exec_rxShortRead_of_live : exec .rxShortRead s = failAttempt .timeout s := live_of_running hf _

theorem exec_rxHdrSoh_of_live : exec .rxHdrSoh s = dataHeader s.codes.soh s := live_of_running hf _

theorem exec_rxHdrStx_of_live : exec .rxHdrStx s = dataHeader s.codes.stx s := live_of_running hf _

theorem exec_rxHdrEot_of_live :
    exec .rxHdrEot s = .next ((s.emit s.codes.ack).terminate .endOfTransfer .endOfTransfer) := live_of_running hf _

theorem exec_rxHdrCan_of_live : exec .rxHdrCan s = .next (s.terminate .cancelled .cancel) := live_of_running hf _

theorem exec_rxSinkFail_of_live (code : StorageCode) : exec (.rxSinkFail code) s = storageFailure code s :=
  live_of_running hf _

theorem exec_rxSettleElapsed_of_mode {m : Mode} (hm : s.mode = some m) :
    exec .rxSettleElapsed s = .next (s.emit (startByte s.codes m)).awaitHeader := by
  rw [exec, execRxSettleElapsed, live_of_running hf, State.need_of_eq hm]

theorem exec_rxSinkOk_of_l {len : Nat} (hl : s.l = some len) :
    exec .rxSinkOk s = .next ((s.addBytes len).emit s.codes.ack).awaitHeader := by
  rw [exec, execRxSinkOk, live_of_running hf, State.need_of_eq hl]

theorem exec_rxBnum_of_live (b : Byte) :
    exec (.rxBnum b) s = .next { s with rblk := some b, ph := some .bcmp, req := some (.rd .char) } := by
  rw [exec, execRxBnum, live_of_running hf, State.request_of_not_src rfl]
  rfl

theorem exec_rxBcmp_of_live (b : Byte) :
    exec (.rxBcmp b) s = .next
      { s with rcblk := some b, idx := some 0, ph := some .data, req := some (.rd .char) } := by
  rw [exec, execRxBcmp, live_of_running hf, State.request_of_not_src rfl]
  rfl

theorem exec_rxData_of_idx {i : Nat} (hi : s.idx = some i) (hlt : i < Config.pbufSize) (d : Byte) :
    exec (.rxData d) s =
      afterPayloadByte (i + 1) ((s.setPbuf (Memory.write s.pbuf i d)).setIdx (some (i + 1))) := by
  rw [exec, execRxData, live_of_running hf, State.need_of_eq hi, storeByte_of_lt hlt]

/-- The last verification byte has the packet evaluated (R152). -/
theorem exec_rxChk_last {i : Nat} (hi : s.cidx = some i) (hlt : i < Config.chkbufSize)
    (hc : s.chklen = some (i + 1)) (v : Byte) :
    exec (.rxChk v) s = evaluate ((s.setChkbuf (Memory.write s.chkbuf i v)).setCidx (some (i + 1))) := by
  rw [exec, execRxChk, live_of_running hf, State.need_of_eq hi, storeByte_of_lt hlt, afterCheckByte,
    State.need_of_eq (by exact hc), if_pos rfl]

end

/-! ### The parts of a packet as they come (R143, R144, R151) -/

theorem inferSize_soh (codes : Codes) : inferSize codes codes.soh = 128 := if_pos rfl

theorem inferSize_stx {codes : Codes} (h : codes.distinct = true) : inferSize codes codes.stx = 1024 := by
  have hne : codes.stx ≠ codes.soh := (Codes.ne_of_distinct h).1.symm
  rw [inferSize, if_neg hne, if_pos rfl, Config.stxSize]

theorem dataHeader_eq (b : Byte) (s : State) :
    dataHeader b s = .next
      { s with psize := some (inferSize s.codes b), ph := some .bnum, req := some (.rd .char) } := by
  rw [dataHeader, State.request_of_not_src rfl]
  rfl

theorem afterPayloadByte_eq {s : State} {p : Nat} {m : Mode} (hp : s.psize = some p) (hm : s.mode = some m) (i : Nat) :
    afterPayloadByte i s = .next
      (if i = p then
        { s with cidx := some 0, chklen := some (checkLen m), ph := some .chk, req := some (.rd .char) }
      else { s with req := some (.rd .char) }) := by
  rw [afterPayloadByte, State.need_of_eq hp]
  by_cases hlast : i = p
  · rw [if_pos hlast, if_pos hlast, State.need_of_eq hm, State.request_of_not_src rfl]
    rfl
  · rw [if_neg hlast, if_neg hlast, State.request_of_not_src rfl]

theorem storageFailure_eq_rxEnded {s : State} (hrole : s.role = .rx) (code : StorageCode) :
    storageFailure code s = .next
      (rxEnded .failed .storageError (some .storageError)
        { s with out := s.out ++ [.wr s.codes.can, .wr s.codes.can], storageCode := some code }) := by
  rw [storageFailure, State.emitAbort_eq, State.terminate_eq_rxEnded (by exact hrole) rfl, if_neg (by decide)]
  rfl

end Sys2Proof.Machine

namespace Sys2Proof

open Sys2Proof.Machine Sys2Proof.Expected

/-! ### The statements -/

/-- Settles O34. Both checks pass, so the evaluation is ACCEPT. -/
theorem goodPacketGoesToTheSink : Obligations.GoodPacketGoesToTheSink := by
  intro s v i p k text m b payload hf hi hlt hc hb hcompl hp hple hpayload hm hchk hk htext
  rw [← chkBytes_eq_chkField] at hchk
  rw [exec_rxChk_last hf hi hlt hc]
  have heval := evaluate_eq_accept
    (s := (s.setChkbuf (Memory.write s.chkbuf i v)).setCidx (some (i + 1))) hb hcompl hp hple hpayload hm hc hlt hchk
  rw [heval, accept_eq (by exact hk) (by exact hb) (by exact htext) (by exact hp) hple (by exact hpayload)]
  rfl

/-- Settles O35. All three are FAIL_ATTEMPT, with `framing_error` for the byte and `timeout` for the timeouts. -/
theorem timeoutsAndBadHeadersAreFailedAttempts : Obligations.TimeoutsAndBadHeadersAreFailedAttempts := by
  intro s b r k set m hf hrole hr hpos hk hset hm
  have hframing := failAttempt_eq (cause := .framingError) (by decide) hrole hr hpos hk hset hm
  have htimeout := failAttempt_eq (cause := .timeout) (by decide) hrole hr hpos hk hset hm
  exact ⟨(exec_rxHdrOther_of_live hf b).trans hframing, (exec_rxHdrTimeout_of_live hf).trans htimeout,
    (exec_rxShortRead_of_live hf).trans htimeout⟩

/-- Settles O27. -/
theorem settleElapsedSendsTheStartByte : Obligations.SettleElapsedSendsTheStartByte := by
  intro s m hf hm
  rw [exec_rxSettleElapsed_of_mode hf hm, State.awaitHeader_eq]
  rfl

/-- Settles O28. SOH is tested first, so only the size of STX needs the codes to be distinct. -/
theorem dataHeadersSetThePayloadSize : Obligations.DataHeadersSetThePayloadSize := by
  intro s hf hdistinct
  rw [exec_rxHdrSoh_of_live hf, exec_rxHdrStx_of_live hf, dataHeader_eq, dataHeader_eq, inferSize_soh,
    inferSize_stx hdistinct]
  exact ⟨rfl, rfl⟩

/-- Settles O29. `terminate` records `cancel` as the last error and leaves the register alone for `end_of_transfer`. -/
theorem eotIsAcknowledgedAndOneCanCancels : Obligations.EotIsAcknowledgedAndOneCanCancels := by
  intro s hf hrole
  constructor
  · rw [exec_rxHdrEot_of_live hf, State.terminate_eq_rxEnded (by exact hrole) rfl, if_pos (by decide)]
    rfl
  · rw [exec_rxHdrCan_of_live hf, State.terminate_eq_rxEnded hrole rfl, if_neg (by decide)]

/-- Settles O30. -/
theorem blockNumberBytesAreKept : Obligations.BlockNumberBytesAreKept := fun _ b hf =>
  ⟨exec_rxBnum_of_live hf b, exec_rxBcmp_of_live hf b⟩

/-- Settles O31, with PBUF after the write as the witness. -/
theorem payloadByteGoesToPbufAtIdx : Obligations.PayloadByteGoesToPbufAtIdx := by
  intro s d i p m hf hi hlt hp hm
  refine ⟨Memory.write s.pbuf i d, Memory.read_write_same .., fun _ ha => Memory.read_write_other _ _ ha, ?_⟩
  rw [exec_rxData_of_idx hf hi hlt, afterPayloadByte_eq (by exact hp) (by exact hm)]
  rfl

/-- Settles O36. -/
theorem sinkAnswersAckOrAbort : Obligations.SinkAnswersAckOrAbort := by
  intro s hf hrole
  refine ⟨fun n hl => ?_, fun code => ?_⟩
  · rw [exec_rxSinkOk_of_l hf hl, State.addBytes_eq, wrapBytes_eq, State.awaitHeader_eq]
    rfl
  · rw [exec_rxSinkFail_of_live hf, storageFailure_eq_rxEnded hrole]

end Sys2Proof
end

section
/-! A receiver that hears nothing (41_receiver.md R166): the steps that take an answer, and the run of timeouts from
START to the end of the session. -/

namespace Sys2Proof.Machine

open Sys2Proof.Expected

/-! ### One step, one event -/

section
variable {s : State} {rest : List Event} (hf : s.faulted = false)
include hf

/-- A legal answer that a rule of the phase takes clears the request and runs that rule's instruction. -/
theorem step_of_answer {a : Answer} {q : Request} {p : Phase} {i : Instr} (hi : s.inbox = .answer a :: rest)
    (hq : s.req = some q) (hl : legalAnswer q a = true) (hp : s.ph = some p)
    (hd : decode s.codes (.answerAt p a) = .ok i) : step s = exec i ((s.setInbox rest).setReq none) := by
  simp [step, fetch, hf, hi, fetchEvent, fetchAnswer, hq, hl, hp, hd]

theorem step_of_startRx {cfg : SessionCfg} (hi : s.inbox = .startRx cfg :: rest) :
    step s = exec (.hostStartRx cfg) (s.setInbox rest) := by
  simp [step, fetch, hf, hi, fetchEvent, fetchCommand, decode]

end

theorem exec_hostStartRx_of_idle {s : State} {cfg : SessionCfg} (hf : s.faulted = false) (hidle : s.busy = false)
    (hrx : 1 ≤ cfg.retryMax) (htx : 1 ≤ cfg.txRetryMax) : exec (.hostStartRx cfg) s = .next (s.latch cfg).rxStart := by
  have hbounds : inBounds cfg = true := by simp [inBounds, hrx, htx]
  rw [exec, execHostStartRx, live_of_running hf, start, hidle, if_neg Bool.false_ne_true, if_pos hbounds]

@[simp] theorem State.latch_faulted (s : State) (cfg : SessionCfg) : (s.latch cfg).faulted = s.faulted := by
  rw [State.latch_eq]

@[simp] theorem State.latch_out (s : State) (cfg : SessionCfg) : (s.latch cfg).out = s.out := by
  rw [State.latch_eq]

@[simp] theorem State.latch_inbox (s : State) (cfg : SessionCfg) : (s.latch cfg).inbox = s.inbox := by
  rw [State.latch_eq]

@[simp] theorem State.latch_codes (s : State) (cfg : SessionCfg) : (s.latch cfg).codes = s.codes := by
  rw [State.latch_eq]

@[simp] theorem State.latch_cfgRetryMax (s : State) (cfg : SessionCfg) :
    (s.latch cfg).cfgRetryMax = some cfg.retryMax := by
  rw [State.latch_eq]

@[simp] theorem State.latch_cfgRxInitMode (s : State) (cfg : SessionCfg) :
    (s.latch cfg).cfgRxInitMode = some cfg.rxInitMode := by
  rw [State.latch_eq]

/-! ### Runs in parts -/

section
variable {M : Host.Core} {s t : M.State}

theorem run_succ_of_step (h : M.step s = .next t) (k : Nat) : M.run (k + 1) s = M.run k t := by
  rw [Host.Core.run, h]

theorem run_add_of_run {j : Nat} (h : M.run j s = .next t) (k : Nat) : M.run (j + k) s = M.run k t := by
  induction j generalizing s with
  | zero =>
    obtain rfl : s = t := Host.Outcome.next.inj h
    rw [Nat.zero_add]
  | succ j ih =>
    rw [Host.Core.run] at h
    split at h
    · next u hu => rw [Nat.succ_add, run_succ_of_step hu, ih h]
    · cases h
    · cases h

end

/-! ### The receiver before its first block -/

/-- A receiver session in mode `m` with no verified packet waits in phase `p` for an answer to `q`, and `r` of its `k`
tries are left. -/
structure BeforeFirstBlock (p : Phase) (q : Request) (m : Mode) (r k : Nat) (s : State) : Prop where
  faulted : s.faulted = false
  role : s.role = .rx
  ph : s.ph = some p
  req : s.req = some q
  mode : s.mode = some m
  blkset : s.blkset = some false
  retry : s.retry = some r
  cfgRetryMax : s.cfgRetryMax = some k

/-- The session waits for the header of its first packet. -/
abbrev AwaitsFirstHeader : Mode → Nat → Nat → State → Prop := BeforeFirstBlock .hdr (.rd .char)

/-- From `s` to `t` the engine has emitted `o`, and `rest` is still to come. -/
structure HasEmitted (s t : State) (o : List Out) (rest : List Event) : Prop where
  out : t.out = s.out ++ o
  inbox : t.inbox = rest
  codes : t.codes = s.codes

theorem HasEmitted.trans {s t u : State} {o o' : List Out} {rest rest' : List Event} (h : HasEmitted s t o rest)
    (h' : HasEmitted t u o' rest') : HasEmitted s u (o ++ o') rest' :=
  ⟨by rw [h'.out, h.out, List.append_assoc], h'.inbox, h'.codes.trans h.codes⟩

theorem rxStart_beforeFirstBlock {s : State} {m : Mode} {k : Nat} (hf : s.faulted = false)
    (hm : s.cfgRxInitMode = some m) (hk : s.cfgRetryMax = some k) :
    BeforeFirstBlock .settle .delay m k k s.rxStart := by
  rw [State.rxStart_eq]
  exact ⟨hf, rfl, rfl, rfl, hm, rfl, hk, hk⟩

theorem rxStart_hasEmitted (s : State) : HasEmitted s s.rxStart [] s.inbox := by
  rw [State.rxStart_eq]
  exact ⟨(List.append_nil _).symm, rfl, rfl⟩

/-- START opens the session with the whole budget and asks for the settle delay (R140). -/
theorem step_startRx_beforeFirstBlock {s : State} {cfg : SessionCfg} {rest : List Event} (hf : s.faulted = false)
    (hidle : s.busy = false) (hrx : 1 ≤ cfg.retryMax) (htx : 1 ≤ cfg.txRetryMax) (hi : s.inbox = .startRx cfg :: rest) :
    ∃ t, step s = .next t ∧ BeforeFirstBlock .settle .delay cfg.rxInitMode cfg.retryMax cfg.retryMax t ∧
      HasEmitted s t [] rest := by
  obtain ⟨hout, hinbox, hcodes⟩ := rxStart_hasEmitted ((s.setInbox rest).latch cfg)
  refine ⟨((s.setInbox rest).latch cfg).rxStart, ?_, rxStart_beforeFirstBlock ?_ ?_ ?_, ?_, ?_, ?_⟩
  · rw [step_of_startRx hf hi, exec_hostStartRx_of_idle (by exact hf) (by exact hidle) hrx htx]
  all_goals simp [hf, hout, hinbox, hcodes]

/-- The end of the settle delay brings the start byte (R141). -/
theorem BeforeFirstBlock.step_settle {m : Mode} {r k : Nat} {s : State} {rest : List Event}
    (h : BeforeFirstBlock .settle .delay m r k s) (hi : s.inbox = .answer .elapsed :: rest) :
    ∃ t, step s = .next t ∧ AwaitsFirstHeader m r k t ∧ HasEmitted s t [.wr (startByte s.codes m)] rest := by
  refine ⟨_, (step_of_answer h.faulted hi h.req rfl h.ph (i := .rxSettleElapsed) rfl).trans
    (exec_rxSettleElapsed_of_mode (by exact h.faulted) (by exact h.mode)), ?_⟩
  rw [State.awaitHeader_eq]
  exact ⟨⟨h.faulted, h.role, rfl, rfl, h.mode, h.blkset, h.retry, h.cfgRetryMax⟩, rfl, rfl, rfl⟩

/-- START and the settle delay: the start byte is out and the whole budget is left. -/
theorem run_start_settle {s : State} {cfg : SessionCfg} {rest : List Event} (hf : s.faulted = false)
    (hidle : s.busy = false) (hrx : 1 ≤ cfg.retryMax) (htx : 1 ≤ cfg.txRetryMax)
    (hi : s.inbox = .startRx cfg :: .answer .elapsed :: rest) :
    ∃ t : State, core.run 2 s = .next t ∧ AwaitsFirstHeader cfg.rxInitMode cfg.retryMax cfg.retryMax t ∧
      HasEmitted s t [.wr (startByte s.codes cfg.rxInitMode)] rest := by
  obtain ⟨u, hstart, hu, hemit⟩ := step_startRx_beforeFirstBlock hf hidle hrx htx hi
  obtain ⟨t, hsettle, ht, hemit'⟩ := hu.step_settle hemit.inbox
  rw [hemit.codes] at hemit'
  exact ⟨t, (run_succ_of_step (M := core) hstart 1).trans (run_succ_of_step (M := core) hsettle 0), ht,
    hemit.trans hemit'⟩

/-- A timeout at the header is a failed attempt (R148). -/
theorem AwaitsFirstHeader.step_timeout {m : Mode} {r k : Nat} {s : State} {rest : List Event}
    (h : AwaitsFirstHeader m r k s) (hpos : 1 ≤ r) (hi : s.inbox = .answer .timeout :: rest) :
    step s = .next (failedAttempt .timeout r k false m ((s.setInbox rest).setReq none)) := by
  rw [step_of_answer h.faulted hi h.req rfl h.ph (i := .rxHdrTimeout) rfl,
    exec_rxHdrTimeout_of_live (by exact h.faulted)]
  exact failAttempt_eq (by decide) h.role h.retry hpos h.cfgRetryMax h.blkset h.mode

/-- With another try left the start byte goes out again (R162). -/
theorem AwaitsFirstHeader.step_retry {m : Mode} {n k : Nat} {s : State} {rest : List Event}
    (h : AwaitsFirstHeader m (n + 2) k s) (hi : s.inbox = .answer .timeout :: rest) :
    ∃ t, step s = .next t ∧ AwaitsFirstHeader m (n + 1) k t ∧ HasEmitted s t [.wr (startByte s.codes m)] rest := by
  refine ⟨_, h.step_timeout (by omega) hi, ?_⟩
  rw [failedAttempt, if_neg (by omega)]
  refine ⟨⟨h.faulted, h.role, rfl, rfl, h.mode, h.blkset, rfl, h.cfgRetryMax⟩, ?_, rfl, rfl⟩
  cases m <;> rfl

theorem AwaitsFirstHeader.run_retries {m : Mode} {k : Nat} (n : Nat) {s : State} {rest : List Event}
    (h : AwaitsFirstHeader m (n + 1) k s) (hi : s.inbox = List.replicate n (.answer .timeout) ++ rest) :
    ∃ t : State, core.run n s = .next t ∧ AwaitsFirstHeader m 1 k t ∧
      HasEmitted s t (List.replicate n (.wr (startByte s.codes m))) rest := by
  induction n generalizing s with
  | zero => exact ⟨s, rfl, h, (List.append_nil _).symm, hi, rfl⟩
  | succ n ih =>
    obtain ⟨u, hstep, hu, hemit⟩ := h.step_retry hi
    obtain ⟨t, hrun, ht, hemit'⟩ := ih hu hemit.inbox
    rw [hemit.codes] at hemit'
    exact ⟨t, (run_succ_of_step (M := core) hstep n).trans hrun, ht, hemit.trans hemit'⟩

/-- On the last try in crc16 mode the receiver falls back to checksum mode, with the whole budget (R160). -/
theorem AwaitsFirstHeader.step_fallback {k : Nat} {s : State} {rest : List Event}
    (h : AwaitsFirstHeader .crc16 1 k s) (hi : s.inbox = .answer .timeout :: rest) :
    ∃ t, step s = .next t ∧ AwaitsFirstHeader .checksum k k t ∧ HasEmitted s t [.wr s.codes.nak] rest := by
  refine ⟨_, h.step_timeout (Nat.le_refl 1) hi, ?_⟩
  rw [failedAttempt, if_pos rfl, if_pos ⟨.inl rfl, rfl, rfl⟩]
  exact ⟨⟨h.faulted, h.role, rfl, rfl, rfl, h.blkset, rfl, h.cfgRetryMax⟩, rfl, rfl, rfl⟩

/-- The session has ended FAILED with `timeout`, in checksum mode. -/
structure FailedByTimeout (s : State) : Prop where
  rxst : s.rxst = some .failed
  result : s.result = some .timeout
  mode : s.mode = some .checksum
  busy : s.busy = false
  ph : s.ph = some .term

/-- On the last try in checksum mode the session ends, and nothing more is emitted (R161). -/
theorem AwaitsFirstHeader.step_exhaust {k : Nat} {s : State} {rest : List Event}
    (h : AwaitsFirstHeader .checksum 1 k s) (hi : s.inbox = .answer .timeout :: rest) :
    ∃ t, step s = .next t ∧ FailedByTimeout t ∧ HasEmitted s t [] rest := by
  refine ⟨_, h.step_timeout (Nat.le_refl 1) hi, ?_⟩
  rw [failedAttempt, if_pos rfl, if_neg (by decide)]
  exact ⟨⟨rfl, rfl, h.mode, rfl, rfl⟩, (List.append_nil _).symm, rfl, rfl⟩

/-- A whole budget of timeouts in checksum mode: every one but the last brings a NAK. -/
theorem AwaitsFirstHeader.run_checksum {n k : Nat} {s : State} {rest : List Event}
    (h : AwaitsFirstHeader .checksum (n + 1) k s)
    (hi : s.inbox = List.replicate (n + 1) (.answer .timeout) ++ rest) :
    ∃ t : State, core.run (n + 1) s = .next t ∧ FailedByTimeout t ∧
      HasEmitted s t (List.replicate n (.wr s.codes.nak)) rest := by
  rw [List.replicate_succ', List.append_assoc] at hi
  obtain ⟨u, hrun, hu, hemit⟩ := h.run_retries n hi
  obtain ⟨t, hstep, ht, hemit'⟩ := hu.step_exhaust hemit.inbox
  refine ⟨t, ?_, ht, ?_⟩
  · rw [run_add_of_run hrun, run_succ_of_step (M := core) hstep]
    rfl
  · simpa [startByte] using hemit.trans hemit'

/-- A whole budget of timeouts in crc16 mode: every one but the last brings a CRQ, and the last one the NAK of checksum
mode. -/
theorem AwaitsFirstHeader.run_crc16 {n k : Nat} {s : State} {rest : List Event}
    (h : AwaitsFirstHeader .crc16 (n + 1) k s)
    (hi : s.inbox = List.replicate (n + 1) (.answer .timeout) ++ rest) :
    ∃ t : State, core.run (n + 1) s = .next t ∧ AwaitsFirstHeader .checksum k k t ∧
      HasEmitted s t (List.replicate n (Out.wr s.codes.crq) ++ [Out.wr s.codes.nak]) rest := by
  rw [List.replicate_succ', List.append_assoc] at hi
  obtain ⟨u, hrun, hu, hemit⟩ := h.run_retries n hi
  obtain ⟨t, hstep, ht, hemit'⟩ := hu.step_fallback hemit.inbox
  rw [hemit.codes] at hemit'
  refine ⟨t, ?_, ht, hemit.trans hemit'⟩
  rw [run_add_of_run hrun, run_succ_of_step (M := core) hstep]
  rfl

end Sys2Proof.Machine

namespace Sys2Proof

open Sys2Proof.Machine

/-! ### The statement -/

/-- Settles O57. START and the settle delay emit the first start byte; in crc16 mode a budget of timeouts then leads to
the fallback, and a budget of timeouts in checksum mode leads to the end. -/
theorem silentPeerEndsTheReceiver : Obligations.SilentPeerEndsTheReceiver := by
  intro s cfg hf hidle hrx htx
  obtain ⟨n, hn⟩ : ∃ n, cfg.retryMax = n + 1 := Nat.exists_eq_add_of_le' hrx
  constructor
  · intro hmode hi
    obtain ⟨u, hrun, hu, hemit⟩ := run_start_settle hf hidle hrx htx hi
    rw [hmode, hn] at hu
    rw [hmode, startByte] at hemit
    have hinbox := hemit.inbox
    rw [hn, Nat.two_mul, List.replicate_add] at hinbox
    obtain ⟨v, hrun', hv, hemit'⟩ := hu.run_crc16 hinbox
    obtain ⟨t, hrun'', ht, hemit''⟩ := hv.run_checksum (hemit'.inbox.trans (List.append_nil _).symm)
    refine ⟨t, ?_, ?_, ht.rxst, ht.result, ht.mode, ht.busy, ht.ph⟩
    · rw [hn, Nat.add_comm, run_add_of_run hrun, Nat.two_mul, run_add_of_run hrun', hrun'']
    · rw [hemit''.out, hemit'.out, hemit.out, hemit'.codes, hemit.codes, hn, List.replicate_succ, List.replicate_succ]
      simp
  · intro hmode hi
    obtain ⟨u, hrun, hu, hemit⟩ := run_start_settle hf hidle hrx htx hi
    rw [hmode, hn] at hu
    rw [hmode, startByte] at hemit
    have hinbox := hemit.inbox
    rw [hn] at hinbox
    obtain ⟨t, hrun', ht, hemit'⟩ := hu.run_checksum (hinbox.trans (List.append_nil _).symm)
    refine ⟨t, ?_, ?_, ht.rxst, ht.result, ht.mode, ht.busy, ht.ph⟩
    · rw [hn, Nat.add_comm, run_add_of_run hrun, hrun']
    · rw [hemit'.out, hemit.out, hemit.codes, hn, List.replicate_succ]
      simp

end Sys2Proof
end

section
/-! The sender's rules (42_sender.md R191 to R213): its shared operations as equations, and its steps as the next state
they answer. -/

namespace Sys2Proof.Machine

open Sys2Proof.Expected

/-! ### The end of a sender session (R254) -/

theorem State.terminate_eq_txEnded {s : State} {t : EndState} {x : TxSt} (hrole : s.role = .tx)
    (hx : txStateOf t = some x) (code : Result) :
    s.terminate t code =
      txEnded x code (if code = .ok ∨ code = .endOfTransfer then s.lastError else some code) s := by
  have hne : s.role ≠ .rx := by simp [hrole]
  rw [State.terminate_tx_eq hne, hx, txEnded]

theorem State.terminate_failed_eq_txEnded {s : State} {code : Result} (hrole : s.role = .tx)
    (hcode : ¬(code = .ok ∨ code = .endOfTransfer)) :
    s.terminate .failed code = txEnded .failed code (some code) s := by
  rw [State.terminate_eq_txEnded hrole rfl, if_neg hcode]

theorem storageFailure_eq_txEnded {s : State} (hrole : s.role = .tx) (code : StorageCode) :
    storageFailure code s = .next
      (txEnded .failed .storageError (some .storageError)
        { s with out := s.out ++ [.wr s.codes.can, .wr s.codes.can], storageCode := some code }) := by
  rw [storageFailure, State.emitAbort_eq, State.terminate_failed_eq_txEnded (by exact hrole) (by decide)]
  rfl

/-! ### The cause of a failed response (R205, R207, R211) -/

theorem causeOf_eq_cause (reply : Reply) : causeOf reply = cause reply := by
  cases reply <;> rfl

theorem causeOf_is_error (reply : Reply) : ¬(causeOf reply = .ok ∨ causeOf reply = .endOfTransfer) := by
  cases reply <;> simp [causeOf]

/-! ### Sending a frame (R198, R199, R202, R208) -/

theorem sendFrame_eq {s : State} {f : Bytes} (hframe : s.frame = some f) (hflen : s.flen = some f.length) :
    sendFrame s = .next { s with out := s.out ++ f.map .wr, ph := some .resp, req := some (.rd .resp) } := by
  rw [sendFrame, State.need_of_eq hframe, State.need_of_eq hflen, if_pos (Nat.le_refl _), List.take_length,
    State.awaitResponse_eq]
  rfl

theorem frameChunk_eq {s : State} {b : Byte} {m : Mode} {k p : Nat} {d : Bytes} (hb : s.blk = some b)
    (hm : s.mode = some m) (hk : s.cfgTxRetryMax = some k) (hle : d.length ≤ p) (hdr : Byte) (n : Nat) :
    frameChunk hdr p n d s = .next
      { s with
        n := some n, frame := some (encodeFrame hdr b (pad d p) m), flen := some (3 + p + checkLen m),
        tretry := some k, out := s.out ++ (encodeFrame hdr b (pad d p) m).map .wr, ph := some .resp,
        req := some (.rd .resp) } := by
  have hlen : (encodeFrame hdr b (pad d p) m).length = 3 + p + checkLen m := by
    rw [encodeFrame_length, pad_length hle]
  rw [frameChunk, State.need_of_eq hb, State.need_of_eq hm, sendFirst, State.need_of_eq (by exact hk)]
  generalize encodeFrame hdr b (pad d p) m = f at hlen ⊢
  rw [sendFrame_eq (f := f) rfl (by rw [hlen]; rfl)]
  simp only [State.setN, State.setFrame, State.setFlen, State.setTretry]

/-- TX_FAIL_ATTEMPT is the failed transmission of R208. -/
theorem txFailAttempt_eq {s : State} {r : Nat} {f : Bytes} (hrole : s.role = .tx) (hr : s.tretry = some r)
    (hpos : 1 ≤ r) (hframe : s.frame = some f) (hflen : s.flen = some f.length) (c : Result) :
    txFailAttempt c s = .next (failedTransmission c r f s) := by
  rw [txFailAttempt, State.need_of_eq hr, failedTransmission]
  by_cases hlast : r = 1
  · rw [if_pos (by omega), if_pos hlast, State.terminate_failed_eq_txEnded (by exact hrole) (by decide), hlast]
    rfl
  · rw [if_neg (by omega), if_neg hlast, sendFrame_eq (by exact hframe) (by exact hflen)]
    rfl

/-- A padded frame, written out as the spec has it (R120, R121). -/
theorem encodeFrame_pad_eq (hdr b : Byte) (d : Bytes) (p : Nat) (m : Mode) :
    encodeFrame hdr b (pad d p) m =
      [hdr, b, ~~~b] ++ (d ++ List.replicate (p - d.length) 0x1A) ++
        chkField (d ++ List.replicate (p - d.length) 0x1A) m := by
  rw [encodeFrame, chkBytes_eq_chkField]
  rfl

/-! ### Asking for a chunk (R191, R192, R195) -/

theorem blockStart_eq {s : State} {b : Byte} {rule : FirstTagRule} (hb : s.blk = some b)
    (hrule : s.cfgFirstTagRule = some rule) :
    blockStart s = .next
      { s with ph := some .src, req := some (.src 1024 (firstTagBy s.srcAsked b rule)), srcAsked := true } := by
  rw [blockStart, State.need_of_eq (by exact hb), State.need_of_eq (by exact hrule), State.request_eq, isSrc,
    Bool.or_true]
  rfl

theorem handshake_eq {s : State} {rule : FirstTagRule} (hrule : s.cfgFirstTagRule = some rule) (m : Mode) :
    handshake m s = .next
      { s with
        mode := some m, blk := some 1, txst := some .sending, ph := some .src,
        req := some (.src 1024 (firstTagBy s.srcAsked 1 rule)), srcAsked := true } := by
  rw [handshake, blockStart_eq (b := 1) rfl (by exact hrule)]
  rfl

/-! ### The sender's instructions in a live engine -/

section
variable {s : State} (hf : s.faulted = false)
include hf

theorem exec_txHsOther_of_live (b : Byte) : exec (.txHsOther b) s = .next { s with req := some (.rd .hs) } := by
  rw [exec, execTxHsOther, live_of_running hf, State.request_of_not_src rfl]

theorem exec_txHsTimeout_of_live : exec .txHsTimeout s = .next (s.terminate .failed .timeout) := live_of_running hf _

theorem exec_txSrcEof_of_live :
    exec .txSrcEof s = .next
      { s with out := s.out ++ [.wr s.codes.eot], ph := some .eot, req := some (.rd .resp) } := by
  rw [exec, execTxSrcEof, live_of_running hf, State.request_of_not_src rfl]
  rfl

theorem exec_txFrameSoh_of_live (n : Nat) (d : Bytes) :
    exec (.txFrameSoh n d) s = frameChunk s.codes.soh 128 n d s := live_of_running hf _

theorem exec_txFrameStx_of_live (n : Nat) (d : Bytes) :
    exec (.txFrameStx n d) s = frameChunk s.codes.stx 1024 n d s := live_of_running hf _

theorem exec_txSrcFail_of_live (code : StorageCode) : exec (.txSrcFail code) s = storageFailure code s :=
  live_of_running hf _

theorem exec_txRespCan_of_live :
    exec .txRespCan s = .next { s with ph := some .respCan, req := some (.rd .resp) } := by
  rw [exec, execTxRespCan, live_of_running hf, State.request_of_not_src rfl]
  rfl

theorem exec_txRespOther_of_live (reply : Reply) : exec (.txRespOther reply) s = txFailAttempt (cause reply) s := by
  rw [exec, execTxRespOther, live_of_running hf, causeOf_eq_cause]

theorem exec_txRespCanOther_of_live (reply : Reply) :
    exec (.txRespCanOther reply) s = txFailAttempt (cause reply) s := by
  rw [exec, execTxRespCanOther, live_of_running hf, causeOf_eq_cause]

theorem exec_txRespCanCan_of_live : exec .txRespCanCan s = .next (s.terminate .failed .cancel) := live_of_running hf _

theorem exec_txEotAck_of_live : exec .txEotAck s = .next (s.terminate .done .ok) := live_of_running hf _

theorem exec_txEotCan_of_live :
    exec .txEotCan s = .next { s with ph := some .eotCan, req := some (.rd .resp) } := by
  rw [exec, execTxEotCan, live_of_running hf, State.request_of_not_src rfl]
  rfl

theorem exec_txEotTimeout_of_live : exec .txEotTimeout s = .next (s.terminate .failed .timeout) :=
  live_of_running hf _

theorem exec_txEotOther_of_live (b : Byte) : exec (.txEotOther b) s = .next (s.terminate .failed .error) :=
  live_of_running hf _

theorem exec_txEotCanCan_of_live : exec .txEotCanCan s = .next (s.terminate .failed .cancel) := live_of_running hf _

theorem exec_txEotCanOther_of_live (reply : Reply) :
    exec (.txEotCanOther reply) s = .next (s.terminate .failed (causeOf reply)) := live_of_running hf _

end

/-! ### The start byte and the acknowledged packet (R191, R192, R203) -/

/-- The start byte of a mode selects that mode (R191, R192). -/
theorem exec_decodeHandshake_startByte {s : State} (hf : s.faulted = false) (hdistinct : s.codes.distinct = true)
    (m : Mode) : exec (decodeHandshake s.codes (startByte s.codes m)) s = handshake m s := by
  have hne : s.codes.nak ≠ s.codes.crq := by simp [Codes.ne_of_distinct hdistinct]
  cases m with
  | crc16 =>
    rw [startByte, decodeHandshake, if_pos rfl]
    exact live_of_running hf _
  | checksum =>
    rw [startByte, decodeHandshake, if_neg hne, if_pos rfl]
    exact live_of_running hf _

theorem exec_txRespAck_eq {s : State} {n : Nat} {b : Byte} {rule : FirstTagRule} (hf : s.faulted = false)
    (hn : s.n = some n) (hb : s.blk = some b) (hrule : s.cfgFirstTagRule = some rule) :
    exec .txRespAck s = .next
      { s with
        status := some .ok, bytes := wrapBytes s.bytesWidth (s.bytes + n), blk := some (b + 1), ph := some .src,
        req := some (.src 1024 (firstTagBy s.srcAsked (b + 1) rule)), srcAsked := true } := by
  rw [exec, execTxRespAck, live_of_running hf, State.need_of_eq hn, nextBlock, State.need_of_eq (by exact hb),
    blockStart_eq (b := b + 1) rfl (by exact hrule)]
  rfl

/-! ### Only the acknowledged EOT makes RESULT ok (R209) -/

/-- A step that answers `k` from a state with RESULT `r` does not make RESULT ok: where it is ok, it was ok before. -/
def NoNewOk (r : Option Result) (k : Step) : Prop := ∀ t, k = .next t → t.result = some .ok → r = some .ok

namespace NoNewOk

theorem next {r : Option Result} {u : State} (h : u.result = some .ok → r = some .ok) : NoNewOk r (.next u) := by
  rintro t ⟨⟩
  exact h

theorem same {r : Option Result} {u : State} (h : u.result = r) : NoNewOk r (.next u) :=
  next fun hok => h ▸ hok

theorem fault (r : Option Result) (e : Fault) : NoNewOk r (.fault e) := by
  rintro t ⟨⟩

theorem terminate {r : Option Result} {code : Result} (hcode : code ≠ .ok) (u : State) (t : EndState) :
    NoNewOk r (.next (u.terminate t code)) := by
  rw [State.terminate_eq]
  exact next fun hok => absurd (Option.some.inj hok) hcode

theorem ite {r : Option Result} {c : Prop} [Decidable c] {k k' : Step} (h : NoNewOk r k) (h' : NoNewOk r k') :
    NoNewOk r (if c then k else k') := by
  split
  · exact h
  · exact h'

theorem live {r : Option Result} {s : State} {k : Step} (h : NoNewOk r k) : NoNewOk r (Machine.live s k) :=
  ite (fault r _) h

theorem need {r : Option Result} {α : Type} {s : State} {v : Option α} {k : α → Step} (hs : s.result = r)
    (h : ∀ x, NoNewOk r (k x)) : NoNewOk r (s.need v k) := by
  cases v with
  | none => exact same hs
  | some x => exact h x

theorem needSlice {r : Option Result} {s : State} {size len : Nat} {mem : List Host.Cell} {k : Bytes → Step}
    (hs : s.result = r) (h : ∀ bs, NoNewOk r (k bs)) : NoNewOk r (s.needSlice size mem len k) :=
  ite (need hs h) (fault r _)

theorem storeByte {r : Option Result} {size a : Nat} {mem : List Host.Cell} {b : Byte} {k : List Host.Cell → Step}
    (h : ∀ mem', NoNewOk r (k mem')) : NoNewOk r (storeByte size mem a b k) :=
  ite (h _) (fault r _)

/-! The receiver's procedures. -/

section
variable {r : Option Result} {s : State} (hs : s.result = r)
include hs

theorem fallbackOk {cause : Result} {k : Bool → Step} (h : ∀ ok, NoNewOk r (k ok)) :
    NoNewOk r (fallbackOk cause s k) :=
  ite (need hs fun _ => ite (h _) (need hs fun _ => h _)) (h _)

theorem fallback : NoNewOk r (fallback s) :=
  need (by exact hs) fun _ => same (by simpa [State.awaitHeader, State.request, State.emit] using hs)

theorem retryResponse (cause : Result) : NoNewOk r (retryResponse cause s) :=
  ite (same hs) (need hs fun _ => ite (same hs) (need hs fun _ => same hs))

theorem afterFailure {cause : Result} (hcause : cause ≠ .ok) (left : Nat) : NoNewOk r (afterFailure cause left s) :=
  ite (fallbackOk hs fun _ => ite (fallback hs) (terminate hcause _ _)) (retryResponse hs cause)

theorem failAttempt {cause : Result} (hcause : cause ≠ .ok) : NoNewOk r (failAttempt cause s) :=
  need (by exact hs) fun _ => afterFailure (by exact hs) hcause _

theorem handToSink (b : Byte) : NoNewOk r (handToSink b s) :=
  need hs fun _ => need hs fun _ => needSlice hs fun _ => same hs

theorem accept : NoNewOk r (accept s) :=
  need (by exact hs) fun _ => need (by exact hs) fun _ => handToSink (by exact hs) _

theorem verifyPacket : NoNewOk r (verifyPacket s) :=
  need hs fun _ => needSlice hs fun _ => need hs fun _ => need hs fun _ => needSlice hs fun _ =>
    ite (failAttempt hs (by decide)) (accept hs)

theorem evaluate : NoNewOk r (evaluate s) :=
  need hs fun _ => need hs fun _ => ite (verifyPacket hs) (failAttempt hs (by decide))

theorem afterPayloadByte (i : Nat) : NoNewOk r (afterPayloadByte i s) :=
  need hs fun _ => ite (need (by exact hs) fun _ => same (by exact hs)) (same hs)

theorem afterCheckByte (i : Nat) : NoNewOk r (afterCheckByte i s) :=
  need hs fun _ => ite (evaluate hs) (same hs)

/-! The sender's procedures. -/

theorem blockStart : NoNewOk r (blockStart s) :=
  need (by exact hs) fun _ => need (by exact hs) fun _ => same (by exact hs)

theorem sendFrame : NoNewOk r (sendFrame s) := need hs fun _ => need hs fun _ => ite (same hs) (same hs)

theorem sendFirst : NoNewOk r (sendFirst s) := need hs fun _ => sendFrame (by exact hs)

theorem frameChunk (hdr : Byte) (p n : Nat) (d : Bytes) : NoNewOk r (frameChunk hdr p n d s) :=
  need (by exact hs) fun _ => need (by exact hs) fun _ => sendFirst (by exact hs)

theorem txFailAttempt (cause : Result) : NoNewOk r (txFailAttempt cause s) :=
  need (by exact hs) fun _ => ite (terminate (by decide) _ _) (sendFrame (by exact hs))

theorem nextBlock : NoNewOk r (nextBlock s) := need hs fun _ => blockStart (by exact hs)

theorem start {cfg : SessionCfg} {begin_ : State → State} (h : ∀ u, (begin_ u).result = none) :
    NoNewOk r (start cfg begin_ s) :=
  ite (same hs) (ite (next fun hok => nomatch (h _).symm.trans hok) (same hs))

end

end NoNewOk

/-- By instruction: most never write RESULT, and a session that ends by any other instruction ends with another code. -/
theorem exec_noNewOk (s : State) : ∀ i : Instr, i ≠ .txEotAck → NoNewOk s.result (exec i s)
  | .rxHdrSoh, _ | .rxHdrStx, _ | .rxBnum _, _ | .rxBcmp _, _ => .live (.same rfl)
  | .rxHdrEot, _ | .rxHdrCan, _ | .rxSinkFail _, _ => .live (.terminate (by decide) _ _)
  | .rxHdrOther _, _ | .rxHdrTimeout, _ | .rxShortRead, _ => .live (.failAttempt rfl (by decide))
  | .rxData _, _ => .live (.need rfl fun _ => .storeByte fun _ => .afterPayloadByte (by exact rfl) _)
  | .rxChk _, _ => .live (.need rfl fun _ => .storeByte fun _ => .afterCheckByte rfl _)
  | .rxSinkOk, _ | .rxSettleElapsed, _ => .live (.need rfl fun _ => .same rfl)
  | .rxEmitCrq, _ | .rxEmitNak, _ | .rxEmitAck, _ | .rxEmitAbort, _ => .live (.same rfl)
  | .txHsCrq, _ | .txHsNak, _ => .live (.blockStart rfl)
  | .txHsOther _, _ | .txSrcEof, _ | .txSrcContract _ _, _ | .txRespCan, _ | .txEotCan, _ => .live (.same rfl)
  | .txFrameSoh _ _, _ | .txFrameStx _ _, _ => .live (.frameChunk rfl _ _ _ _)
  | .txRespAck, _ => .live (.need rfl fun _ => .nextBlock rfl)
  | .txRespOther _, _ | .txRespCanOther _, _ => .live (.txFailAttempt rfl _)
  | .txHsTimeout, _ | .txSrcFail _, _ | .txRespCanCan, _ | .txEotTimeout, _ | .txEotOther _, _ | .txEotCanCan, _ =>
    .live (.terminate (by decide) _ _)
  | .txEotCanOther reply, _ => .live (.terminate (fun hok => causeOf_is_error reply (.inl hok)) _ _)
  | .txEotAck, hne => absurd rfl hne
  | .txEmitEot, _ | .txEmitAbort, _ | .txEmitFlush, _ => .live (.same rfl)
  | .hostStartRx _, _ | .hostStartTx _, _ => .live (.start rfl fun _ => rfl)
  | .hostRd _, _ | .hostWr _, _ | .hostWrbuf _, _ | .hostFlush, _ | .hostDelay, _ | .hostSink _ _, _ | .hostSrc _ _, _ =>
    .live (.same rfl)
  | .crc16Update _ _, _ | .crc16 _ _, _ | .cksum _, _ | .inferSize _, _ | .checkLen _, _ | .chkBytes _ _, _
  | .verify _ _ _, _ | .blkchk _ _, _ | .pad _ _, _ | .encodeFrame _ _ _ _, _ | .sizeSelect _, _ | .trim _, _
  | .startByte _, _ => .live (.same rfl)
  | .firstTag _, _ => .live (.need rfl fun _ => .same rfl)

end Sys2Proof.Machine

namespace Sys2Proof

open Sys2Proof.Machine Sys2Proof.Expected

/-! ### The statements -/

/-- Settles O39. The chunk is padded to the packet's size and framed under the current block and mode; the frame's length
is the packet's, so the whole frame goes out. -/
theorem chunkIsFramedAndSent : Obligations.ChunkIsFramedAndSent := by
  intro s d b m k hf hb hm hk
  refine ⟨fun _ hle => ?_, fun _ hle => ?_⟩
  · rw [exec_txFrameSoh_of_live hf, frameChunk_eq hb hm hk hle, encodeFrame_pad_eq]
    cases m <;> rfl
  · rw [exec_txFrameStx_of_live hf, frameChunk_eq hb hm hk hle, encodeFrame_pad_eq]
    cases m <;> rfl

/-- Settles O43. Both rules are TX_FAIL_ATTEMPT with the cause the reply gives. -/
theorem otherResponsesRetransmitTheFrame : Obligations.OtherResponsesRetransmitTheFrame := by
  intro s reply r f hf hrole hr hpos hframe hflen
  constructor
  · rw [exec_txRespOther_of_live hf, txFailAttempt_eq hrole hr hpos hframe hflen]
  · rw [exec_txRespCanOther_of_live hf, txFailAttempt_eq hrole hr hpos hframe hflen]

/-- Settles O44. The five EOT rules are read off their steps; that no other instruction makes RESULT ok is
`exec_noNewOk`. -/
theorem eotAnswersAndTheOnlyOkResult : Obligations.EotAnswersAndTheOnlyOkResult := by
  refine ⟨fun s hf hrole => ⟨exec_txSrcEof_of_live hf, ?_, exec_txEotCan_of_live hf, ?_, fun b => ?_⟩,
    fun i s t hexec hok hnot => ?_⟩
  · rw [exec_txEotAck_of_live hf, State.terminate_eq_txEnded hrole rfl, if_pos (.inl rfl)]
  · rw [exec_txEotTimeout_of_live hf, State.terminate_failed_eq_txEnded hrole (by decide)]
  · rw [exec_txEotOther_of_live hf, State.terminate_failed_eq_txEnded hrole (by decide)]
  · by_contra hne
    exact hnot (exec_noNewOk s i hne t hexec hok)

/-- Settles O38. -/
theorem handshakeDiscardsOtherBytesAndTimesOut : Obligations.HandshakeDiscardsOtherBytesAndTimesOut := by
  intro s hf hrole
  refine ⟨exec_txHsOther_of_live hf, ?_⟩
  rw [exec_txHsTimeout_of_live hf, State.terminate_failed_eq_txEnded hrole (by decide)]

/-- Settles O40. -/
theorem sourceFailureAbortsTheSession : Obligations.SourceFailureAbortsTheSession := by
  intro s code hf hrole
  rw [exec_txSrcFail_of_live hf, storageFailure_eq_txEnded hrole]

/-- Settles O42. A first CAN only changes the phase; every second answer but the retransmissions of R207 ends the
session. -/
theorem twoCansCancelTheSender : Obligations.TwoCansCancelTheSender := by
  intro s hf hrole
  refine ⟨exec_txRespCan_of_live hf, ?_, exec_txEotCan_of_live hf, ?_, fun reply => ?_⟩
  · rw [exec_txRespCanCan_of_live hf, State.terminate_failed_eq_txEnded hrole (by decide)]
  · rw [exec_txEotCanCan_of_live hf, State.terminate_failed_eq_txEnded hrole (by decide)]
  · rw [exec_txEotCanOther_of_live hf, State.terminate_failed_eq_txEnded hrole (causeOf_is_error reply),
      causeOf_eq_cause]

end Sys2Proof
end

section
/-! A sender session in two packets (42_sender.md R216): START tx and the start byte, a chunk and its answers, and the end
of the transfer, each as a run of the engine. -/

namespace Sys2Proof.Machine

open Sys2Proof.Expected

/-! ### The counter's width (D11) -/

@[simp] theorem wrapBytes_zero (width : Option Nat) : wrapBytes width 0 = 0 := by
  cases width
  · rfl
  · exact Nat.zero_mod _

@[simp] theorem wrapBytes_wrapBytes_add (width : Option Nat) (x y : Nat) :
    wrapBytes width (wrapBytes width x + y) = wrapBytes width (x + y) := by
  cases width
  · rfl
  · exact Nat.mod_add_mod ..

/-! ### A chunk of the full size needs no fill (R120) -/

theorem pad_of_length {d : Bytes} {p : Nat} (h : d.length = p) : pad d p = d := by
  rw [pad, h, Nat.sub_self, List.replicate_zero, List.append_nil]

/-! ### The start of a session (R190, R230) -/

theorem step_of_startTx {s : State} {rest : List Event} {cfg : SessionCfg} (hf : s.faulted = false)
    (hi : s.inbox = .startTx cfg :: rest) : step s = exec (.hostStartTx cfg) (s.setInbox rest) := by
  simp [step, fetch, hf, hi, fetchEvent, fetchCommand, decode]

theorem exec_hostStartTx_of_idle {s : State} {cfg : SessionCfg} (hf : s.faulted = false) (hidle : s.busy = false)
    (hrx : 1 ≤ cfg.retryMax) (htx : 1 ≤ cfg.txRetryMax) : exec (.hostStartTx cfg) s = .next (s.latch cfg).txStart := by
  have hbounds : inBounds cfg = true := by simp [inBounds, hrx, htx]
  rw [exec, execHostStartTx, live_of_running hf, start, hidle, if_neg Bool.false_ne_true, if_pos hbounds]

/-! ### The answers of the script as the decoder reads them (R90, R199) -/

theorem decode_src_stx (codes : Codes) {n : Nat} {d : Bytes} (hn : d.length = n) (hlo : 128 < n) (hhi : n ≤ 1024) :
    decode codes (.answerAt .src (.srcData n d)) = .ok (.txFrameStx n d) := by
  have hkept : ¬(Config.maxChunk < n ∨ d.length ≠ n) := by simp [Config.maxChunk, hn, hhi]
  have hsize : ¬n ≤ Config.sohSize := Nat.not_le.2 hlo
  rw [decode, decodeAnswer, decodeChunk, if_neg hkept, if_neg (by omega), if_neg hsize]

theorem decode_resp_ack (codes : Codes) : decode codes (.answerAt .resp (.byte codes.ack)) = .ok .txRespAck := by
  rw [decode_resp_byte, decodeResponse, if_pos rfl]

theorem decode_resp_nak {codes : Codes} (h : codes.distinct = true) :
    decode codes (.answerAt .resp (.byte codes.nak)) = .ok (.txRespOther (.byte codes.nak)) := by
  have hne := Codes.ne_of_distinct h
  rw [decode_resp_byte, decodeResponse, if_neg (by simp [eq_comm, hne]), if_neg (by simp [hne])]

theorem decode_eot_ack (codes : Codes) : decode codes (.answerAt .eot (.byte codes.ack)) = .ok .txEotAck := by
  rw [decode_eot_byte, decodeEot, if_pos rfl]

/-! ### What a running sender holds -/

/-- What is fixed in one sender session: the engine's control codes and the width of its bytes counter, the tries for a
packet, the rule of the first-block tag, and the mode that the peer's start byte selects. -/
structure SenderSetup where
  codes : Codes
  width : Option Nat
  tries : Nat
  tagRule : FirstTagRule
  mode : Mode

/-- A sender session runs under the set-up `e`. -/
structure SenderRuns (e : SenderSetup) (s : State) : Prop where
  faulted : s.faulted = false
  role : s.role = .tx
  codes : s.codes = e.codes
  bytesWidth : s.bytesWidth = e.width
  cfgTxRetryMax : s.cfgTxRetryMax = some e.tries
  cfgFirstTagRule : s.cfgFirstTagRule = some e.tagRule

/-- The session waits for the start byte and has counted nothing. -/
structure AwaitsStartByte (e : SenderSetup) (s : State) : Prop extends SenderRuns e s where
  ph : s.ph = some .hs
  req : s.req = some (.rd .hs)
  bytes : s.bytes = 0

/-- The handshake is over, block `b` is the current one, and `sent` bytes are acknowledged. -/
structure SenderSends (e : SenderSetup) (b : Byte) (sent : Nat) (s : State) : Prop extends SenderRuns e s where
  mode : s.mode = some e.mode
  blk : s.blk = some b
  bytes : s.bytes = wrapBytes e.width sent

/-- The source is asked for the chunk of block `b`. -/
structure AwaitsChunk (e : SenderSetup) (b : Byte) (sent : Nat) (s : State) : Prop extends SenderSends e b sent s where
  ph : s.ph = some .src
  req : ∃ first, s.req = some (.src 1024 first)

/-- The frame `f` of block `b`, which carries `n` bytes, is out, and `r` tries are left. -/
structure AwaitsResponse (e : SenderSetup) (b : Byte) (sent n : Nat) (f : Bytes) (r : Nat) (s : State) : Prop
    extends SenderSends e b sent s where
  ph : s.ph = some .resp
  req : s.req = some (.rd .resp)
  n : s.n = some n
  frame : s.frame = some f
  flen : s.flen = some f.length
  tretry : s.tretry = some r

/-- EOT is out. -/
structure AwaitsEotAnswer (e : SenderSetup) (b : Byte) (sent : Nat) (s : State) : Prop
    extends SenderSends e b sent s where
  ph : s.ph = some .eot
  req : s.req = some (.rd .resp)

/-- The session has ended DONE with `ok`, at block `b` with `sent` bytes acknowledged. -/
structure SenderDone (e : SenderSetup) (b : Byte) (sent : Nat) (s : State) : Prop where
  result : s.result = some .ok
  txst : s.txst = some .done
  blk : s.blk = some b
  bytes : s.bytes = wrapBytes e.width sent

/-! ### Runs that emit -/

/-- `k` steps lead from `s` to a state with `P`; they emit `o` and leave `rest` still to come. -/
def RunsTo (k : Nat) (s : State) (P : State → Prop) (o : List Out) (rest : List Event) : Prop :=
  ∃ t : State, core.run k s = .next t ∧ P t ∧ HasEmitted s t o rest

theorem RunsTo.of_step {s t : State} {P : State → Prop} {o : List Out} {rest : List Event} (h : step s = .next t)
    (hP : P t) (hemit : HasEmitted s t o rest) : RunsTo 1 s P o rest :=
  ⟨t, run_succ_of_step (M := core) h 0, hP, hemit⟩

theorem RunsTo.trans {j k : Nat} {s : State} {P Q : State → Prop} {o o' : List Out} {rest rest' : List Event}
    (h : RunsTo j s P o rest) (h' : ∀ t, P t → t.inbox = rest → RunsTo k t Q o' rest') :
    RunsTo (j + k) s Q (o ++ o') rest' := by
  obtain ⟨t, hrun, hP, hemit⟩ := h
  obtain ⟨u, hrun', hQ, hemit'⟩ := h' t hP hemit.inbox
  exact ⟨u, (run_add_of_run hrun k).trans hrun', hQ, hemit.trans hemit'⟩

/-! ### The steps of the session -/

section
variable {e : SenderSetup} {b : Byte} {sent n r : Nat} {f : Bytes} {s : State} {rest : List Event}

/-- START flushes the port and opens the session (R190); the peer may then choose any mode. -/
theorem runsTo_startTx {cfg : SessionCfg} (hf : s.faulted = false) (hidle : s.busy = false) (hrx : 1 ≤ cfg.retryMax)
    (htx : 1 ≤ cfg.txRetryMax) (hi : s.inbox = .startTx cfg :: rest) (m : Mode) :
    RunsTo 1 s (AwaitsStartByte ⟨s.codes, s.bytesWidth, cfg.txRetryMax, cfg.firstTagRule, m⟩) [.flush] rest := by
  have hstep : step s = .next ((s.setInbox rest).latch cfg).txStart := by
    rw [step_of_startTx hf hi, exec_hostStartTx_of_idle (by exact hf) (by exact hidle) hrx htx]
  rw [State.latch_eq, State.txStart_eq] at hstep
  exact .of_step hstep ⟨⟨hf, rfl, rfl, rfl, rfl, rfl⟩, rfl, rfl, rfl⟩ ⟨rfl, rfl, rfl⟩

/-- The start byte selects the mode and asks for the chunk of block 1 (R191, R192, R195). -/
theorem AwaitsStartByte.runsTo_chunk (h : AwaitsStartByte e s) (hdistinct : e.codes.distinct = true)
    (hi : s.inbox = .answer (.byte (startByte e.codes e.mode)) :: rest) :
    RunsTo 1 s (AwaitsChunk e 1 0) [] rest := by
  rw [← h.codes] at hi hdistinct
  have hstep := step_of_answer h.faulted hi h.req rfl h.ph (decode_hs_byte ..)
  have hexec := exec_decodeHandshake_startByte (s := (s.setInbox rest).setReq none) (by exact h.faulted)
    (by exact hdistinct) e.mode
  rw [handshake_eq (by exact h.cfgFirstTagRule)] at hexec
  refine .of_step (hstep.trans hexec)
    ⟨⟨⟨h.faulted, h.role, h.codes, h.bytesWidth, h.cfgTxRetryMax, h.cfgFirstTagRule⟩, rfl, rfl, ?_⟩, rfl, _, rfl⟩
    ⟨(List.append_nil _).symm, rfl, rfl⟩
  exact h.bytes.trans (wrapBytes_zero e.width).symm

/-- A chunk of more than 128 bytes goes out as an STX packet, with the whole budget (R199, R202). -/
theorem AwaitsChunk.runsTo_response {d : Bytes} (h : AwaitsChunk e b sent s) (hn : d.length = n) (hlo : 128 < n)
    (hhi : n ≤ 1024) (hi : s.inbox = .answer (.srcData n d) :: rest) :
    RunsTo 1 s (AwaitsResponse e b sent n (encodeFrame e.codes.stx b (pad d 1024) e.mode) e.tries)
      ((encodeFrame e.codes.stx b (pad d 1024) e.mode).map .wr) rest := by
  obtain ⟨first, hreq⟩ := h.req
  have hle : d.length ≤ 1024 := hn ▸ hhi
  have hstep := step_of_answer h.faulted hi hreq rfl h.ph (decode_src_stx s.codes hn hlo hhi)
  rw [exec_txFrameStx_of_live (by exact h.faulted),
    frameChunk_eq (by exact h.blk) (by exact h.mode) (by exact h.cfgTxRetryMax) hle] at hstep
  rw [← h.codes]
  refine .of_step hstep
    ⟨⟨⟨h.faulted, h.role, h.codes, h.bytesWidth, h.cfgTxRetryMax, h.cfgFirstTagRule⟩, h.mode, h.blk, h.bytes⟩,
      rfl, rfl, rfl, rfl, ?_, rfl⟩ ⟨rfl, rfl, rfl⟩
  rw [encodeFrame_length, pad_length hle]

/-- ACK counts the block and asks for the next chunk (R203). -/
theorem AwaitsResponse.runsTo_chunk (h : AwaitsResponse e b sent n f r s)
    (hi : s.inbox = .answer (.byte e.codes.ack) :: rest) : RunsTo 1 s (AwaitsChunk e (b + 1) (sent + n)) [] rest := by
  rw [← h.codes] at hi
  have hstep := step_of_answer h.faulted hi h.req rfl h.ph (decode_resp_ack s.codes)
  rw [exec_txRespAck_eq (by exact h.faulted) (by exact h.n) (by exact h.blk) (by exact h.cfgFirstTagRule)] at hstep
  refine .of_step hstep
    ⟨⟨⟨h.faulted, h.role, h.codes, h.bytesWidth, h.cfgTxRetryMax, h.cfgFirstTagRule⟩, h.mode, rfl, ?_⟩, rfl, _, rfl⟩
    ⟨(List.append_nil _).symm, rfl, rfl⟩
  change wrapBytes s.bytesWidth (s.bytes + n) = _
  rw [h.bytesWidth, h.bytes, wrapBytes_wrapBytes_add]

/-- NAK with another try left sends the same frame again (R205, R208). -/
theorem AwaitsResponse.runsTo_retransmission (h : AwaitsResponse e b sent n f r s) (hdistinct : e.codes.distinct = true)
    (hr : 2 ≤ r) (hi : s.inbox = .answer (.byte e.codes.nak) :: rest) :
    RunsTo 1 s (AwaitsResponse e b sent n f (r - 1)) (f.map .wr) rest := by
  rw [← h.codes] at hi hdistinct
  have hstep := step_of_answer h.faulted hi h.req rfl h.ph (decode_resp_nak hdistinct)
  rw [exec_txRespOther_of_live (by exact h.faulted),
    txFailAttempt_eq (by exact h.role) (by exact h.tretry) (by omega) (by exact h.frame) (by exact h.flen),
    failedTransmission, if_neg (by omega)] at hstep
  exact .of_step hstep
    ⟨⟨⟨h.faulted, h.role, h.codes, h.bytesWidth, h.cfgTxRetryMax, h.cfgFirstTagRule⟩, h.mode, h.blk, h.bytes⟩,
      rfl, rfl, h.n, h.frame, h.flen, rfl⟩ ⟨rfl, rfl, rfl⟩

/-- The empty chunk sends EOT (R197). -/
theorem AwaitsChunk.runsTo_eot (h : AwaitsChunk e b sent s) (hi : s.inbox = .answer (.srcData 0 []) :: rest) :
    RunsTo 1 s (AwaitsEotAnswer e b sent) [.wr e.codes.eot] rest := by
  obtain ⟨first, hreq⟩ := h.req
  have hstep := step_of_answer h.faulted hi hreq rfl h.ph (i := .txSrcEof) rfl
  rw [exec_txSrcEof_of_live (by exact h.faulted)] at hstep
  rw [← h.codes]
  exact .of_step hstep
    ⟨⟨⟨h.faulted, h.role, h.codes, h.bytesWidth, h.cfgTxRetryMax, h.cfgFirstTagRule⟩, h.mode, h.blk, h.bytes⟩,
      rfl, rfl⟩ ⟨rfl, rfl, rfl⟩

/-- ACK to EOT ends the session with `ok` (R209). -/
theorem AwaitsEotAnswer.runsTo_done (h : AwaitsEotAnswer e b sent s)
    (hi : s.inbox = .answer (.byte e.codes.ack) :: rest) : RunsTo 1 s (SenderDone e b sent) [] rest := by
  rw [← h.codes] at hi
  have hstep := step_of_answer h.faulted hi h.req rfl h.ph (decode_eot_ack s.codes)
  rw [exec_txEotAck_of_live (by exact h.faulted), State.terminate_eq_txEnded (by exact h.role) rfl] at hstep
  exact .of_step hstep ⟨rfl, rfl, h.blk, h.bytes⟩ ⟨(List.append_nil _).symm, rfl, rfl⟩

end

end Sys2Proof.Machine

namespace Sys2Proof

open Sys2Proof.Machine

/-! ### The statement -/

/-- Settles O58. The run is the chain of the nine steps, one for each event of the script. -/
theorem fifteenHundredBytesAreSent : Obligations.FifteenHundredBytesAreSent := by
  intro s cfg m d1 d2 hdistinct hf hidle hrx htx hd1 hd2 hi
  have hpad1 : pad d1 1024 = d1 := pad_of_length hd1
  have hpad2 : pad d2 1024 = d2 ++ List.replicate 548 0x1A := by
    rw [pad, hd2]
    rfl
  obtain ⟨t, hrun, ht, hemit⟩ :=
    (runsTo_startTx hf hidle hrx (by omega) hi m).trans fun _ h hi =>
    (h.runsTo_chunk hdistinct (by rw [hi]; cases m <;> rfl)).trans fun _ h hi =>
    (h.runsTo_response hd1 (by decide) (by decide) hi).trans fun _ h hi =>
    (h.runsTo_chunk hi).trans fun _ h hi =>
    (h.runsTo_response hd2 (by decide) (by decide) hi).trans fun _ h hi =>
    (h.runsTo_retransmission hdistinct htx hi).trans fun _ h hi =>
    (h.runsTo_chunk hi).trans fun _ h hi =>
    (h.runsTo_eot hi).trans fun _ h hi => h.runsTo_done hi
  refine ⟨t, hrun, ht.result, ht.txst, ht.blk, ht.bytes, ?_⟩
  have hblk2 : (1 : Byte) + 1 = 2 := rfl
  rw [hemit.out, hpad1, hpad2, hblk2]
  simp only [List.append_assoc, List.nil_append, List.append_nil]

end Sys2Proof
end

section
/-! One step and its event (10_state.md R43; 43_host.md R230, R233, R234; 60_exceptions.md R262): a faulted engine, an
illegal answer, no event, and START in every state. -/

namespace Sys2Proof.Machine

/-! ### A faulted engine, and an engine with no event -/

theorem exec_of_faulted {s : State} (hf : s.faulted = true) (i : Instr) : exec i s = .fault .engineFaulted := by
  cases i <;> exact live_of_faulted hf _

theorem step_of_faulted {s : State} (hf : s.faulted = true) : step s = .fault .engineFaulted := by
  rw [step, fetch, if_pos hf]

theorem step_of_no_event {s : State} (hf : s.faulted = false) (hi : s.inbox = []) : step s = .next s := by
  simp [step, fetch, hf, hi]

/-! ### Which answers are legal (R233) -/

theorem legalAnswer_delay_iff {a : Answer} : legalAnswer .delay a = true ↔ a = .elapsed := by
  cases a <;> simp [legalAnswer]

theorem legalAnswer_rd_iff {kind : RdKind} {a : Answer} :
    legalAnswer (.rd kind) a = true ↔ (∃ b, a = .byte b) ∨ a = .timeout := by
  cases a <;> simp [legalAnswer]

theorem legalAnswer_sink_iff {blk : Byte} {bytes : Bytes} {a : Answer} :
    legalAnswer (.sink blk bytes) a = true ↔ a = .sinkOk ∨ ∃ code, a = .sinkFail code := by
  cases a <;> simp [legalAnswer]

theorem legalAnswer_src_iff {max : Nat} {first : Bool} {a : Answer} :
    legalAnswer (.src max first) a = true ↔ (∃ n d, a = .srcData n d) ∨ ∃ code, a = .srcFail code := by
  cases a <;> simp [legalAnswer]

/-- An answer that is not legal, or that nothing has asked for, raises FAULT(bad_answer) and leaves the request. -/
theorem step_of_illegal_answer {s : State} {a : Answer} {rest : List Event} (hf : s.faulted = false)
    (hi : s.inbox = .answer a :: rest) (hill : ∀ q, s.req = some q → legalAnswer q a = false) :
    step s = .next ((s.setInbox rest).raise .badAnswer) := by
  cases hq : s.req with
  | none => simp [step, fetch, hf, hi, fetchEvent, fetchAnswer, hq]
  | some q => simp [step, fetch, hf, hi, fetchEvent, fetchAnswer, hq, hill q hq]

/-! ### START (R230) -/

section
variable {s : State} (hf : s.faulted = false) (cfg : SessionCfg)
include hf

theorem exec_hostStartRx_of_live : exec (.hostStartRx cfg) s = start cfg State.rxStart s := live_of_running hf _

theorem exec_hostStartTx_of_live : exec (.hostStartTx cfg) s = start cfg State.txStart s := live_of_running hf _

end

theorem start_of_busy {s : State} (hbusy : s.busy = true) (cfg : SessionCfg) (begin_ : State → State) :
    start cfg begin_ s = .next (s.raise .startWhileBusy) := if_pos hbusy

theorem start_of_idle {s : State} (hidle : s.busy = false) {cfg : SessionCfg} (hcfg : inBounds cfg = true)
    (begin_ : State → State) : start cfg begin_ s = .next (begin_ (s.latch cfg)) := by
  rw [start, hidle, if_neg Bool.false_ne_true, if_pos hcfg]

theorem start_of_bad_config {s : State} (hidle : s.busy = false) {cfg : SessionCfg} (hcfg : inBounds cfg = false)
    (begin_ : State → State) : start cfg begin_ s = .next (s.raise .badConfig) := by
  rw [start, hidle, if_neg Bool.false_ne_true, hcfg, if_neg Bool.false_ne_true]

theorem inBounds_iff {cfg : SessionCfg} : inBounds cfg = true ↔ 1 ≤ cfg.retryMax ∧ 1 ≤ cfg.txRetryMax := by
  simp [inBounds]

end Sys2Proof.Machine

namespace Sys2Proof

open Sys2Proof.Machine

/-! ### The statements -/

/-- Settles O16. -/
theorem stepRunsTheDecodedInstruction : Obligations.StepRunsTheDecodedInstruction :=
  ⟨fun _ _ _ _ _ _ hf hi hq hl hp hd => step_of_answer hf hi hq hl hp hd,
    fun _ _ _ hf hi => step_of_startRx hf hi, fun _ _ _ hf hi => step_of_startTx hf hi⟩

/-- Settles O17. -/
theorem illegalAnswersFaultAndNoEventWaits : Obligations.IllegalAnswersFaultAndNoEventWaits :=
  ⟨fun _ _ _ hf hi hill => step_of_illegal_answer hf hi hill, fun _ hf hi => step_of_no_event hf hi⟩

/-- Settles O18. -/
theorem faultedEngineStops : Obligations.FaultedEngineStops := fun _ hf =>
  ⟨step_of_faulted hf, exec_of_faulted hf⟩

/-- Settles O26. START tests BUSY before the configuration, and each fault is `raise`. -/
theorem modelFaultsWriteOnlyFaulted : Obligations.ModelFaultsWriteOnlyFaulted := by
  intro s cfg hf
  rw [exec_hostStartRx_of_live hf, exec_hostStartTx_of_live hf]
  refine ⟨fun hbusy => ⟨start_of_busy hbusy .., start_of_busy hbusy ..⟩, fun hidle hzero => ?_,
    fun _ _ => live_of_running hf _⟩
  have hcfg : inBounds cfg = false := by
    rw [Bool.eq_false_iff, ne_eq, inBounds_iff]
    omega
  exact ⟨start_of_bad_config hidle hcfg _, start_of_bad_config hidle hcfg _⟩

/-- Settles O24. -/
theorem startRxOpensAReceiverSession : Obligations.StartRxOpensAReceiverSession := by
  intro s cfg hf hidle hrx htx
  rw [exec_hostStartRx_of_idle hf hidle hrx htx, State.latch_eq, State.rxStart_eq]

/-- Settles O25. -/
theorem startTxOpensASenderSession : Obligations.StartTxOpensASenderSession := by
  intro s cfg hf hidle hrx htx
  rw [exec_hostStartTx_of_idle hf hidle hrx htx, State.latch_eq, State.txStart_eq]

/-- Settles O19. -/
theorem powerOnValues : Obligations.PowerOnValues := by
  simp [Obligations.PowerOnValues, State.reset, Memory.read]

end Sys2Proof
end

section
/-! The statements about single instructions: the codec's operations, the verification byte, the failed packet, the
sender's requests to the source, and the emissions and requests as instructions of their own. -/

namespace Sys2Proof.Machine

/-! ### Verification bytes and bad packets (R152, R154, R155) -/

/-- A verification byte that leaves the field incomplete is stored, and the next one is asked for (R152). -/
theorem exec_rxChk_more {s : State} {i k : Nat} (hf : s.faulted = false) (hi : s.cidx = some i)
    (hlt : i < Config.chkbufSize) (hk : s.chklen = some k) (hne : i + 1 ≠ k) (v : Byte) :
    exec (.rxChk v) s = .next
      { s with chkbuf := Memory.write s.chkbuf i v, cidx := some (i + 1), req := some (.rd .char) } := by
  rw [exec, execRxChk, live_of_running hf, State.need_of_eq hi, storeByte_of_lt hlt, afterCheckByte,
    State.need_of_eq (by exact hk), if_neg hne, State.request_of_not_src rfl]
  rfl

/-- EVALUATE fails the attempt on a packet whose complement or verification field is wrong. -/
theorem evaluate_eq_failAttempt {s : State} {b c : Byte} {p k : Nat} {m : Mode} {payload chk : Bytes}
    (hb : s.rblk = some b) (hcompl : s.rcblk = some c) (hp : s.psize = some p) (hple : p ≤ Config.pbufSize)
    (hpayload : Memory.slice s.pbuf 0 p = some payload) (hm : s.mode = some m) (hk : s.chklen = some k)
    (hkle : k ≤ Config.chkbufSize) (hchk : Memory.slice s.chkbuf 0 k = some chk)
    (hbad : c ≠ ~~~b ∨ chk ≠ chkBytes payload m) : evaluate s = failAttempt .crcError s := by
  rw [evaluate, State.need_of_eq hb, State.need_of_eq hcompl]
  by_cases hc : blkchk b c = true
  · have hverify : verify payload m chk = .crcError :=
      if_neg (hbad.resolve_left (not_not_intro ((blkchk_iff b c).1 hc)))
    rw [if_pos hc, verifyPacket, State.need_of_eq hp, State.needSlice_of_slice hple hpayload, State.need_of_eq hm,
      State.need_of_eq hk, State.needSlice_of_slice hkle hchk, hverify, if_pos rfl]
  · rw [if_neg hc]

/-! ### The codec's operations (40_codec.md) -/

theorem portResult_of_live {s : State} (hf : s.faulted = false) (r : DpOut) :
    portResult s r = .next { s with dp := r } := live_of_running hf _

theorem exec_firstTag_of_rule {s : State} {rule : FirstTagRule} (hf : s.faulted = false)
    (hrule : s.cfgFirstTagRule = some rule) (blk : Byte) :
    exec (.firstTag blk) s = .next { s with dp := .flag (firstTagBy s.srcAsked blk rule) } := by
  rw [exec, execFirstTag, live_of_running hf, State.need_of_eq hrule]
  rfl

/-! ### FIRST_TAG of a block (R196) -/

/-- Block 1 is the first one under either rule, when nothing has been asked for under first_only. -/
theorem firstTagBy_one {rule : FirstTagRule} {srcAsked : Bool} (h : rule = .wrapped8 ∨ srcAsked = false) :
    firstTagBy srcAsked 1 rule = true := by
  cases rule
  · rfl
  · simpa [firstTagBy] using h

theorem add_one_eq_ofNat (b : Byte) : b + 1 = BitVec.ofNat 8 ((b.toNat + 1) % 256) :=
  BitVec.eq_of_toNat_eq (by simp)

theorem firstTagBy_add_one (srcAsked : Bool) (b : Byte) (rule : FirstTagRule) :
    firstTagBy srcAsked (b + 1) rule =
      match rule with | .wrapped8 => decide ((b.toNat + 1) % 256 < 2) | .firstOnly => !srcAsked := by
  cases rule with
  | wrapped8 => simp [firstTagBy]
  | firstOnly => rfl

end Sys2Proof.Machine

namespace Sys2Proof

open Sys2Proof.Machine Sys2Proof.Expected

/-! ### The statements -/

/-- Settles O33. Either check alone sends the evaluation to FAIL_ATTEMPT with cause `crc_error`. -/
theorem badPacketIsAFailedAttempt : Obligations.BadPacketIsAFailedAttempt := by
  intro s v i p r k set m b c payload chk hf hrole hi hlt hc hb hcompl hp hple hpayload hm hchk hr hpos hk hset hbad
  rw [← chkBytes_eq_chkField] at hbad
  have heval := evaluate_eq_failAttempt
    (s := (s.setChkbuf (Memory.write s.chkbuf i v)).setCidx (some (i + 1))) hb hcompl hp hple hpayload hm hc hlt hchk hbad
  rw [exec_rxChk_last hf hi hlt hc, heval,
    failAttempt_eq (by decide) (by exact hrole) (by exact hr) hpos (by exact hk) (by exact hset) (by exact hm)]
  rfl

/-- Settles O32, with CHKBUF after the write as the witness. -/
theorem checkByteGoesToChkbufAtCidx : Obligations.CheckByteGoesToChkbufAtCidx := fun _ _ _ _ hf hi hlt hk hne =>
  ⟨_, Memory.read_write_same .., fun _ ha => Memory.read_write_other _ _ ha, exec_rxChk_more hf hi hlt hk hne _⟩

/-- Settles O10. Each operation puts its value at the port; the values are the codec's functions as the spec writes them. -/
theorem codecOperationsCompleteAndWriteNoRegister : Obligations.CodecOperationsCompleteAndWriteNoRegister := by
  intro s hf
  have hport : ∀ r, portResult s r = .next { s with dp := r } := portResult_of_live hf
  refine ⟨fun crc b => ?_, fun bytes seed => ?_, fun bytes => ?_, fun _ => hport _, fun m => ?_, fun payload m => ?_,
    fun payload m chk => ?_, fun b c => ?_, fun _ _ => hport _, fun hdr b payload m => ?_, fun _ => hport _,
    fun _ => hport _, fun m => ?_, fun blk rule hrule => ?_⟩
  · rw [exec, execCrc16Update, hport, crc16Update_eq_crcStep]
  · rw [exec, execCrc16, hport, crc16, funext₂ crc16Update_eq_crcStep]
  · rw [exec, execCksum, hport, cksum_eq_ofNat_sum]
  · cases m <;> exact hport _
  · rw [exec, execChkBytes, hport, chkBytes_eq_chkField]
  · rw [exec, execVerify, hport, verify, chkBytes_eq_chkField]
  · have hflag : blkchk b c = decide (c = ~~~b) := by rw [Bool.eq_iff_iff, blkchk_iff, decide_eq_true_eq]
    rw [exec, execBlkchk, hport, hflag]
  · rw [exec, execEncodeFrame, hport, encodeFrame, chkBytes_eq_chkField]
  · cases m <;> exact hport _
  · rw [exec_firstTag_of_rule hf hrule]
    cases rule <;> rfl

/-- Settles O37. -/
theorem startByteSelectsTheModeAndAsksTheSource : Obligations.StartByteSelectsTheModeAndAsksTheSource := by
  intro s rule hf hrule htag
  have hmode := handshake_eq hrule
  rw [firstTagBy_one htag] at hmode
  exact ⟨(live_of_running hf _).trans (hmode .crc16), (live_of_running hf _).trans (hmode .checksum)⟩

/-- Settles O41. The block number's addition is modulo 256. -/
theorem ackAdvancesTheBlock : Obligations.AckAdvancesTheBlock := by
  intro s n b rule hf hn hb hrule
  have hexec := exec_txRespAck_eq hf hn hb hrule
  rw [wrapBytes_eq, firstTagBy_add_one, add_one_eq_ofNat] at hexec
  exact hexec

/-- Settles O45. -/
theorem outputsOnlyExtendTheHistory : Obligations.OutputsOnlyExtendTheHistory := by
  intro s hf
  have habort : live s (.next s.emitAbort) =
      .next { s with out := s.out ++ [.wr s.codes.can, .wr s.codes.can] } := by
    rw [live_of_running hf, State.emitAbort_eq]
  exact ⟨live_of_running hf _, live_of_running hf _, live_of_running hf _, habort, live_of_running hf _, habort,
    live_of_running hf _, fun _ => live_of_running hf _, fun _ => live_of_running hf _, live_of_running hf _⟩

/-- Settles O46. Only the request to the source leaves a mark. -/
theorem requestsBecomeTheOutstandingOne : Obligations.RequestsBecomeTheOutstandingOne := by
  intro s hf
  have hplain : ∀ q, isSrc q = false → live s (.next (s.request q)) = .next { s with req := some q } := by
    intro q hq
    rw [live_of_running hf, State.request_of_not_src hq]
  refine ⟨fun _ => hplain _ rfl, hplain _ rfl, fun _ _ => hplain _ rfl, fun max first => ?_⟩
  rw [exec, execHostSrc, live_of_running hf, State.request_eq, isSrc, Bool.or_true]

end Sys2Proof
end

section
/-! The decoder against the encoder (30_encoding.md R80, R83 to R85, R88 to R90; 43_host.md R230, R233, R239, R240): what
each decode table answers is well-formed and encodes back to what was read. -/

namespace Sys2Proof

open Sys2Proof.Machine

/-- `e` is an encoding of the well-formed instruction `i`. -/
def Encodes (codes : Codes) (e : Encoded) (i : Instr) : Prop := wellFormed codes i = true ∧ e ∈ encode codes i

section
variable (codes : Codes)

/-! ### The byte tables (R88, R90) -/

theorem encodes_decodeHeader (b : Byte) : Encodes codes (.answerAt .hdr (.byte b)) (decodeHeader codes b) := by
  unfold decodeHeader
  split_ifs <;> simp_all [Encodes, wellFormed, encode]

theorem encodes_decodeHandshake (b : Byte) : Encodes codes (.answerAt .hs (.byte b)) (decodeHandshake codes b) := by
  unfold decodeHandshake
  split_ifs <;> simp_all [Encodes, wellFormed, encode]

theorem encodes_decodeResponse (b : Byte) : Encodes codes (.answerAt .resp (.byte b)) (decodeResponse codes b) := by
  unfold decodeResponse
  split_ifs <;> simp_all [Encodes, wellFormed, encode, Reply.toAnswer]

theorem encodes_decodeResponseCan (b : Byte) :
    Encodes codes (.answerAt .respCan (.byte b)) (decodeResponseCan codes b) := by
  unfold decodeResponseCan
  split_ifs <;> simp_all [Encodes, wellFormed, encode, Reply.toAnswer]

theorem encodes_decodeEot (b : Byte) : Encodes codes (.answerAt .eot (.byte b)) (decodeEot codes b) := by
  unfold decodeEot
  split_ifs <;> simp_all [Encodes, wellFormed, encode]

theorem encodes_decodeEotCan (b : Byte) : Encodes codes (.answerAt .eotCan (.byte b)) (decodeEotCan codes b) := by
  unfold decodeEotCan
  split_ifs <;> simp_all [Encodes, wellFormed, encode, Reply.toAnswer]

/-! ### The source's chunk (R197 to R200) -/

/-- A chunk that breaks the contract, no bytes, at most 128 bytes, or more. -/
theorem encodes_decodeChunk (n : Nat) (d : Bytes) :
    Encodes codes (.answerAt .src (.srcData n d)) (decodeChunk n d) := by
  unfold decodeChunk
  split_ifs with hbroken hzero hsoh
  · simpa [Encodes, wellFormed, encode] using hbroken
  · simp_all [Encodes, wellFormed, encode]
  · simp_all [Encodes, wellFormed, encode]
    omega
  · simp_all [Encodes, wellFormed, encode, Config.maxChunk, Config.stxSize]

/-! ### Emissions and requests -/

variable {codes}

theorem encodes_of_decodeRxEmit {o : List Out} {i : Instr} (h : decodeRxEmit codes o = .ok i) :
    Encodes codes (.rxEmit o) i := by
  unfold decodeRxEmit at h
  split_ifs at h <;> cases h <;> simp_all [Encodes, wellFormed, encode]

theorem encodes_of_decodeTxEmit {o : List Out} {i : Instr} (h : decodeTxEmit codes o = .ok i) :
    Encodes codes (.txEmit o) i := by
  unfold decodeTxEmit at h
  split_ifs at h <;> cases h <;> simp_all [Encodes, wellFormed, encode]

theorem encodes_of_decodeRequest {q : Request} {i : Instr} (h : decodeRequest q = .ok i) :
    Encodes codes (.request q) i := by
  cases q with
  | delay | rd => cases h; simp [Encodes, wellFormed, encode]
  | sink | src =>
    simp only [decodeRequest] at h
    split_ifs at h
    cases h
    simp_all [Encodes, wellFormed, encode]

/-! ### All encodings -/

theorem encodes_of_decodeAnswer {p : Phase} {a : Answer} {i : Instr} (h : decodeAnswer codes p a = .ok i) :
    Encodes codes (.answerAt p a) i := by
  cases p with
  | settle | bnum | bcmp | data | chk | sink | term => cases a <;> cases h <;> simp [Encodes, wellFormed, encode]
  | hdr =>
    cases a with
    | byte b => cases h; exact encodes_decodeHeader codes b
    | _ => cases h <;> simp [Encodes, wellFormed, encode]
  | hs =>
    cases a with
    | byte b => cases h; exact encodes_decodeHandshake codes b
    | _ => cases h <;> simp [Encodes, wellFormed, encode]
  | resp =>
    cases a with
    | byte b => cases h; exact encodes_decodeResponse codes b
    | _ => cases h <;> simp [Encodes, wellFormed, encode, Reply.toAnswer]
  | respCan =>
    cases a with
    | byte b => cases h; exact encodes_decodeResponseCan codes b
    | _ => cases h <;> simp [Encodes, wellFormed, encode, Reply.toAnswer]
  | eot =>
    cases a with
    | byte b => cases h; exact encodes_decodeEot codes b
    | _ => cases h <;> simp [Encodes, wellFormed, encode]
  | eotCan =>
    cases a with
    | byte b => cases h; exact encodes_decodeEotCan codes b
    | _ => cases h <;> simp [Encodes, wellFormed, encode, Reply.toAnswer]
  | src =>
    cases a with
    | srcData n d => cases h; exact encodes_decodeChunk codes n d
    | _ => cases h <;> simp [Encodes, wellFormed, encode]

theorem encodes_of_decode {e : Encoded} {i : Instr} (h : decode codes e = .ok i) : Encodes codes e i := by
  cases e with
  | command ev => cases ev <;> cases h <;> simp [Encodes, wellFormed, encode]
  | answerAt p a => exact encodes_of_decodeAnswer h
  | rxEmit o => exact encodes_of_decodeRxEmit h
  | txEmit o => exact encodes_of_decodeTxEmit h
  | output o => cases o <;> cases h <;> simp [Encodes, wellFormed, encode]
  | request q => exact encodes_of_decodeRequest h

end

/-- Every encoding of every well-formed instruction decodes to it: the family `Laws.Encoding`, put together. -/
theorem Laws.Encoding.statement : ∀ i : Instr, Laws.Encoding.Statement i
  | .rxHdrSoh => rxHdrSoh
  | .rxHdrStx => rxHdrStx
  | .rxHdrEot => rxHdrEot
  | .rxHdrCan => rxHdrCan
  | .rxHdrOther b => rxHdrOther b
  | .rxHdrTimeout => rxHdrTimeout
  | .rxBnum b => rxBnum b
  | .rxBcmp b => rxBcmp b
  | .rxData b => rxData b
  | .rxChk b => rxChk b
  | .rxShortRead => rxShortRead
  | .rxSinkOk => rxSinkOk
  | .rxSinkFail code => rxSinkFail code
  | .rxSettleElapsed => rxSettleElapsed
  | .rxEmitCrq => rxEmitCrq
  | .rxEmitNak => rxEmitNak
  | .rxEmitAck => rxEmitAck
  | .rxEmitAbort => rxEmitAbort
  | .txHsCrq => txHsCrq
  | .txHsNak => txHsNak
  | .txHsOther b => txHsOther b
  | .txHsTimeout => txHsTimeout
  | .txSrcEof => txSrcEof
  | .txFrameSoh n d => txFrameSoh n d
  | .txFrameStx n d => txFrameStx n d
  | .txSrcContract n d => txSrcContract n d
  | .txSrcFail code => txSrcFail code
  | .txRespAck => txRespAck
  | .txRespCan => txRespCan
  | .txRespOther r => txRespOther r
  | .txRespCanCan => txRespCanCan
  | .txRespCanOther r => txRespCanOther r
  | .txEotAck => txEotAck
  | .txEotCan => txEotCan
  | .txEotTimeout => txEotTimeout
  | .txEotOther b => txEotOther b
  | .txEotCanCan => txEotCanCan
  | .txEotCanOther r => txEotCanOther r
  | .txEmitEot => txEmitEot
  | .txEmitAbort => txEmitAbort
  | .txEmitFlush => txEmitFlush
  | .hostStartRx cfg => hostStartRx cfg
  | .hostStartTx cfg => hostStartTx cfg
  | .hostRd kind => hostRd kind
  | .hostWr b => hostWr b
  | .hostWrbuf d => hostWrbuf d
  | .hostFlush => hostFlush
  | .hostDelay => hostDelay
  | .hostSink blk d => hostSink blk d
  | .hostSrc max first => hostSrc max first
  | .crc16Update crc b => crc16Update crc b
  | .crc16 d seed => crc16 d seed
  | .cksum d => cksum d
  | .inferSize b => inferSize b
  | .checkLen m => checkLen m
  | .chkBytes d m => chkBytes d m
  | .verify d m chk => verify d m chk
  | .blkchk b c => blkchk b c
  | .pad d p => pad d p
  | .encodeFrame hdr b d m => encodeFrame hdr b d m
  | .sizeSelect n => sizeSelect n
  | .trim d => trim d
  | .startByte m => startByte m
  | .firstTag b => firstTag b

/-! ### The statements -/

/-- Settles O14. What is decoded encodes back to what was read; what the encoder writes is decoded, by instruction. -/
theorem decodeAndEncodeAgree : Obligations.DecodeAndEncodeAgree := fun codes hdistinct i e =>
  ⟨encodes_of_decode, fun h => Laws.Encoding.statement i codes hdistinct h.1 e h.2⟩

/-- Settles O13. At each phase's request, by the kind of the answer. -/
theorem legalAnswersAreTheDecodedOnes : Obligations.LegalAnswersAreTheDecodedOnes := by
  intro codes p q a hpq
  split at hpq
  all_goals cases a <;> simp_all [legalAnswer, decode, decodeAnswer]

/-- Settles O15. -/
theorem tableWordsDecode : Obligations.TableWordsDecode := by
  unfold Obligations.TableWordsDecode
  decide

end Sys2Proof
end

section
/-! The engine's invariant over one step (10_state.md R22 to R43, 42_sender.md R215, 60_exceptions.md R251, R254): every
rule of a phase answers a next state with the guarantee of the phase it leads to. -/

namespace Sys2Proof.Machine

open Sys2Proof.Expected Sys2Proof.Safety

/-! ### What the invariant says while no fault is up -/

/-- The part of the invariant that names no phase, in an engine without a fault. -/
def Sound (s : State) : Prop :=
  s.codes.distinct = true ∧ Memory.wf Config.pbufSize s.pbuf = true ∧ Memory.wf Config.chkbufSize s.chkbuf = true ∧
  s.faultReason ≠ some .unwritten ∧ s.faulted = false

theorem inv_iff_of_live {s : State} (hf : s.faulted = false) : Safety.Inv s ↔ Sound s ∧ PhaseInv s s.ph := by
  simp [Safety.Inv, Sound, hf, and_assoc]

section
variable {s : State} (h : Sound s)
include h

theorem Sound.codes : s.codes.distinct = true := h.1

theorem Sound.live : s.faulted = false := h.2.2.2.2

/-- A byte stored in PBUF. -/
theorem Sound.setPbuf {i : Nat} (hi : i < Config.pbufSize) (b : Byte) :
    Sound (s.setPbuf (Memory.write s.pbuf i b)) := by
  obtain ⟨hcodes, hpbuf, hchkbuf, hreason, hf⟩ := h
  exact ⟨hcodes, Memory.wf_write hpbuf hi, hchkbuf, hreason, hf⟩

/-- A byte stored in CHKBUF. -/
theorem Sound.setChkbuf {i : Nat} (hi : i < Config.chkbufSize) (b : Byte) :
    Sound (s.setChkbuf (Memory.write s.chkbuf i b)) := by
  obtain ⟨hcodes, hpbuf, hchkbuf, hreason, hf⟩ := h
  exact ⟨hcodes, hpbuf, Memory.wf_write hchkbuf hi, hreason, hf⟩

/-- A fault other than FAULT(unwritten) keeps the invariant, whatever the phase. -/
theorem Sound.inv_raise {reason : FaultReason} (hreason : reason ≠ .unwritten) : Safety.Inv (s.raise reason) := by
  obtain ⟨hcodes, hpbuf, hchkbuf, -, -⟩ := h
  exact ⟨hcodes, hpbuf, hchkbuf, fun hr => hreason (Option.some.inj hr), fun hf => nomatch hf⟩

end

/-- `k` answers a next state without a fault that meets the invariant, with `inbox` still to come. -/
def Lands (inbox : List Event) (k : Step) : Prop :=
  ∃ t, k = .next t ∧ Sound t ∧ PhaseInv t t.ph ∧ t.inbox = inbox

theorem Lands.next {t : State} {inbox : List Event} (ht : Sound t) (hphase : PhaseInv t t.ph)
    (hinbox : t.inbox = inbox := by rfl) : Lands inbox (.next t) := ⟨t, rfl, ht, hphase, hinbox⟩

theorem Lands.next_of_ph {t : State} {p : Option Phase} {inbox : List Event} (hp : t.ph = p) (ht : Sound t)
    (hphase : PhaseInv t p) (hinbox : t.inbox = inbox := by rfl) : Lands inbox (.next t) :=
  .next ht (hp ▸ hphase) hinbox

/-! ### The end of a session (R251, R254) -/

theorem ended_rxEnded {s : State} {x : RxSt} {code : Result} {err : Option Result} (hrole : s.role = .rx)
    (hend : RxEnd x code) (herr : code ≠ .ok → code ≠ .endOfTransfer → err = some code)
    (hcode : s.storageCode.isSome = true ↔ code = .storageError) : Ended (rxEnded x code err s) :=
  ⟨rfl, rfl, code, rfl, rfl, herr, hcode, .inl ⟨hrole, x, rfl, hend⟩⟩

theorem ended_txEnded {s : State} {x : TxSt} {code : Result} {err : Option Result} (hrole : s.role = .tx)
    (hend : TxEnd x code) (herr : code ≠ .ok → code ≠ .endOfTransfer → err = some code)
    (hcode : s.storageCode.isSome = true ↔ code = .storageError) : Ended (txEnded x code err s) :=
  ⟨rfl, rfl, code, rfl, rfl, herr, hcode, .inr ⟨hrole, x, rfl, hend⟩⟩

/-- No storage code is there, and the session does not end for want of storage. -/
theorem no_storageCode_iff {s : State} {code : Result} (hnone : s.storageCode = none) (hne : code ≠ .storageError) :
    s.storageCode.isSome = true ↔ code = .storageError := by
  simp [hnone, hne]

/-! ### START (R140, R190, R230) -/

section
variable {s : State} {cfg : SessionCfg} (h : Sound s)
include h

theorem rxStart_lands (hcfg : inBounds cfg = true) : Lands s.inbox (.next (s.latch cfg).rxStart) := by
  obtain ⟨hrx, -⟩ := inBounds_iff.1 hcfg
  obtain ⟨hcodes, -, -, hreason, hf⟩ := h
  rw [State.latch_eq, State.rxStart_eq]
  exact .next ⟨hcodes, rfl, rfl, hreason, hf⟩
    ⟨⟨rfl, rfl, rfl, rfl, rfl, rfl, rfl, ⟨_, _, rfl, rfl, hrx, Nat.le_refl _⟩, .inl ⟨rfl, rfl, rfl⟩⟩, rfl, rfl⟩

theorem txStart_lands (hcfg : inBounds cfg = true) : Lands s.inbox (.next (s.latch cfg).txStart) := by
  obtain ⟨-, htx⟩ := inBounds_iff.1 hcfg
  rw [State.latch_eq, State.txStart_eq]
  exact .next h
    ⟨⟨rfl, rfl, rfl, rfl, rfl, rfl, _, rfl, htx⟩, rfl, rfl, rfl, rfl⟩

end

/-! ### The receiver's rules -/

section
variable {s : State} (h : Sound s)
include h

/-- A failed attempt leads to the header position or ends the session (R159 to R162). -/
theorem failAttempt_lands (hrun : RxRunning s) {cause : Result}
    (hcause : cause = .timeout ∨ cause = .crcError ∨ cause = .framingError) :
    Lands s.inbox (failAttempt cause s) := by
  obtain ⟨hbusy, hrole, hresult, hcode, hstatus, hmode, htext, ⟨r, k, hr, hk, hpos, hle⟩, hblk⟩ := hrun
  obtain ⟨m, hm⟩ := Option.isSome_iff_exists.1 hmode
  obtain ⟨set, hset⟩ : ∃ set, s.blkset = some set := by
    rcases hblk with ⟨hset, -⟩ | ⟨hset, -⟩
    · exact ⟨_, hset⟩
    · exact ⟨_, hset⟩
  have herror : ¬(cause = .ok ∨ cause = .endOfTransfer) := by rcases hcause with rfl | rfl | rfl <;> simp
  have hne : cause ≠ .storageError := by rcases hcause with rfl | rfl | rfl <;> simp
  have hnext := failAttempt_eq herror hrole hr hpos hk hset hm
  have hsound : ∀ t : State, t = failedAttempt cause r k set m s → Sound t ∧ PhaseInv t t.ph ∧ t.inbox = s.inbox := by
    rintro t rfl
    unfold failedAttempt
    by_cases hlast : r = 1
    · rw [if_pos hlast]
      split_ifs
      · exact ⟨h,
          ⟨⟨hbusy, hrole, hresult, hcode, rfl, rfl, htext, ⟨k, k, rfl, hk, Nat.le_trans hpos hle, Nat.le_refl k⟩,
            hblk⟩, rfl⟩, rfl⟩
      · exact ⟨h,
          ended_rxEnded (by exact hrole) (.inr (.inr ⟨rfl, by tauto⟩)) (fun _ _ => rfl)
            (no_storageCode_iff (by exact hcode) hne), rfl⟩
    · rw [if_neg hlast]
      exact ⟨h,
        ⟨⟨hbusy, hrole, hresult, hcode, rfl, hmode, htext, ⟨r - 1, k, rfl, hk, by omega, by omega⟩, hblk⟩, rfl⟩, rfl⟩
  exact ⟨_, hnext, hsound _ rfl⟩

/-- The end of the settle delay (R141). -/
theorem rxSettleElapsed_lands (hrun : RxRunning s) : Lands s.inbox (exec .rxSettleElapsed s) := by
  obtain ⟨-, -, -, -, -, hmode, -⟩ := id hrun
  obtain ⟨m, hm⟩ := Option.isSome_iff_exists.1 hmode
  rw [exec_rxSettleElapsed_of_mode h.live hm, State.awaitHeader_eq]
  exact .next h ⟨hrun, rfl⟩

/-- A data header announces one of the two payload sizes (R143, R144). -/
theorem dataHeader_lands (hrun : RxRunning s) {b : Byte} (hsize : IsSize (inferSize s.codes b)) :
    Lands s.inbox (dataHeader b s) := by
  rw [dataHeader_eq]
  exact .next h ⟨hrun, rfl, _, rfl, hsize⟩

/-- Every byte at the header position (R88, R143 to R147). -/
theorem decodeHeader_lands (hrun : RxRunning s) (b : Byte) : Lands s.inbox (exec (decodeHeader s.codes b) s) := by
  obtain ⟨-, hrole, -, hcode, -⟩ := id hrun
  unfold decodeHeader
  split_ifs
  · rw [exec_rxHdrSoh_of_live h.live]
    exact dataHeader_lands h hrun (.inl (inferSize_soh _))
  · rw [exec_rxHdrStx_of_live h.live]
    exact dataHeader_lands h hrun (.inr (inferSize_stx h.codes))
  · rw [exec_rxHdrEot_of_live h.live, State.terminate_eq_rxEnded (by exact hrole) rfl]
    exact .next h
      (ended_rxEnded (by exact hrole) (.inl ⟨rfl, rfl⟩) (fun _ hne => absurd rfl hne)
        (no_storageCode_iff (by exact hcode) nofun))
  · rw [exec_rxHdrCan_of_live h.live, State.terminate_eq_rxEnded hrole rfl]
    exact .next h
      (ended_rxEnded hrole (.inr (.inl ⟨rfl, rfl⟩)) (fun _ _ => rfl) (no_storageCode_iff hcode nofun))
  · rw [exec_rxHdrOther_of_live h.live]
    exact failAttempt_lands h hrun (.inr (.inr rfl))

theorem rxBnum_lands (hrun : RxRunning s) (hsize : ∃ p, s.psize = some p ∧ IsSize p) (b : Byte) :
    Lands s.inbox (exec (.rxBnum b) s) := by
  rw [exec_rxBnum_of_live h.live]
  exact .next h ⟨hrun, rfl, hsize, rfl⟩

theorem rxBcmp_lands (hrun : RxRunning s) (hsize : ∃ p, s.psize = some p ∧ IsSize p) (hrblk : s.rblk.isSome = true)
    (b : Byte) : Lands s.inbox (exec (.rxBcmp b) s) := by
  obtain ⟨p, hp, hp'⟩ := hsize
  have hpos : 0 < p := by rcases hp' with rfl | rfl <;> decide
  rw [exec_rxBcmp_of_live h.live]
  exact .next h
    ⟨hrun, rfl, p, 0, ⟨hp, hp', hrblk, rfl⟩, rfl, hpos, fun _ ha => absurd ha (Nat.not_lt_zero _)⟩

omit h in
/-- A write at the first index without a value. -/
theorem filled_write {m : List Host.Cell} {i : Nat} (hm : Filled m i) (b : Byte) :
    Filled (Memory.write m i b) (i + 1) := by
  intro a ha
  by_cases hai : a = i
  · rw [hai, Memory.read_write_same, Option.isSome_some]
  · rw [Memory.read_write_other _ _ hai]
    exact hm a (by omega)

omit h in
/-- A slice of bytes that all have a value. -/
theorem slice_of_filled {m : List Host.Cell} {k : Nat} (hm : Filled m k) : ∃ bs, Memory.slice m 0 k = some bs := by
  rw [← Option.isSome_iff_exists, Memory.slice_isSome]
  intro i hi
  rw [Nat.zero_add]
  exact hm i hi

omit h in
theorem isSize_le_pbufSize {p : Nat} (hp : IsSize p) : p ≤ Config.pbufSize := by rcases hp with rfl | rfl <;> decide

/-- A payload byte is stored; the last one opens the verification field (R151). -/
theorem rxData_lands (hrun : RxRunning s) {p i : Nat} (hpacket : InPacket s p) (hi : s.idx = some i) (hlt : i < p)
    (hfilled : Filled s.pbuf i) (hph : s.ph = some .data) (d : Byte) : Lands s.inbox (exec (.rxData d) s) := by
  obtain ⟨-, -, -, -, -, hmode, -⟩ := id hrun
  obtain ⟨m, hm⟩ := Option.isSome_iff_exists.1 hmode
  obtain ⟨hp, hsize, -⟩ := id hpacket
  have hpbuf : i < Config.pbufSize := Nat.lt_of_lt_of_le hlt (isSize_le_pbufSize hsize)
  have hfilled' := filled_write hfilled d
  rw [exec_rxData_of_idx h.live hi hpbuf, afterPayloadByte_eq (by exact hp) (by exact hm)]
  split_ifs with hlast
  · exact .next (h.setPbuf hpbuf d)
      ⟨hrun, rfl, p, m, 0, hpacket, hlast ▸ hfilled', hm, rfl, rfl, checkLen_pos m,
        fun _ ha => absurd ha (Nat.not_lt_zero _)⟩
  · exact .next_of_ph hph (h.setPbuf hpbuf d)
      ⟨hrun, rfl, p, i + 1, hpacket, rfl, by omega, hfilled'⟩

/-- A packet whose bytes all have a value is handed to the sink or fails the attempt (R154 to R156). -/
theorem evaluate_lands (hrun : RxRunning s) {p : Nat} {m : Mode} (hpacket : InPacket s p) (hfilled : Filled s.pbuf p)
    (hm : s.mode = some m) (hk : s.chklen = some (checkLen m)) (hchk : Filled s.chkbuf (checkLen m)) :
    Lands s.inbox (evaluate s) := by
  obtain ⟨hbusy, hrole, hresult, hcode, hstatus, hmode, htext, ⟨r, k, hr, hcfg, hpos, hle⟩, -⟩ := id hrun
  obtain ⟨hp, hsize, hrblk, hrcblk⟩ := id hpacket
  obtain ⟨b, hb⟩ := Option.isSome_iff_exists.1 hrblk
  obtain ⟨c, hc⟩ := Option.isSome_iff_exists.1 hrcblk
  obtain ⟨text, htext'⟩ := Option.isSome_iff_exists.1 htext
  obtain ⟨payload, hpayload⟩ := slice_of_filled hfilled
  obtain ⟨chk, hfield⟩ := slice_of_filled hchk
  by_cases hgood : c = ~~~b ∧ chk = chkBytes payload m
  · obtain ⟨rfl, rfl⟩ := hgood
    rw [evaluate_eq_accept hb hc hp (isSize_le_pbufSize hsize) hpayload hm hk (checkLen_le m) hfield,
      accept_eq hcfg hb htext' hp (isSize_le_pbufSize hsize) hpayload]
    have hlen : payload.length = p := Memory.slice_length hpayload
    have htrim : trim payload ≤ p := hlen ▸ trim_le payload
    have hkept : (if text then trim payload else p) ≤ p := by split_ifs <;> omega
    refine .next h
      ⟨⟨hbusy, hrole, hresult, hcode, rfl, hmode, htext, ⟨k, k, rfl, hcfg, Nat.le_trans hpos hle, Nat.le_refl k⟩,
        .inr ⟨rfl, rfl, rfl⟩⟩, rfl, b, payload.take (if text then trim payload else p), rfl, ?_, ?_, rfl⟩
    · rw [List.length_take, hlen, Nat.min_eq_left hkept]
    · rw [List.length_take, hlen, Nat.min_eq_left hkept]
      exact Nat.le_trans hkept (isSize_le_pbufSize hsize)
  · rw [evaluate_eq_failAttempt hb hc hp (isSize_le_pbufSize hsize) hpayload hm hk (checkLen_le m) hfield (by tauto)]
    exact failAttempt_lands h hrun (.inr (.inl rfl))

/-- A verification byte is stored; the last one has the packet evaluated (R152). -/
theorem rxChk_lands (hrun : RxRunning s) {p i : Nat} {m : Mode} (hpacket : InPacket s p) (hfilled : Filled s.pbuf p)
    (hm : s.mode = some m) (hk : s.chklen = some (checkLen m)) (hi : s.cidx = some i) (hlt : i < checkLen m)
    (hchk : Filled s.chkbuf i) (hph : s.ph = some .chk) (v : Byte) : Lands s.inbox (exec (.rxChk v) s) := by
  have hchkbuf : i < Config.chkbufSize := Nat.lt_of_lt_of_le hlt (checkLen_le m)
  have hchk' := filled_write hchk v
  by_cases hlast : i + 1 = checkLen m
  · rw [exec_rxChk_last h.live hi hchkbuf (hlast ▸ hk)]
    exact evaluate_lands (s := (s.setChkbuf (Memory.write s.chkbuf i v)).setCidx (some (i + 1)))
      (h.setChkbuf hchkbuf v) hrun hpacket hfilled hm hk (hlast ▸ hchk')
  · rw [exec_rxChk_more h.live hi hchkbuf hk hlast]
    exact .next_of_ph hph (h.setChkbuf hchkbuf v)
      ⟨hrun, rfl, p, m, i + 1, hpacket, hfilled, hm, hk, rfl, by omega, hchk'⟩

theorem rxSinkOk_lands (hrun : RxRunning s) {len : Nat} (hl : s.l = some len) : Lands s.inbox (exec .rxSinkOk s) := by
  rw [exec_rxSinkOk_of_l h.live hl, State.awaitHeader_eq]
  exact .next h ⟨hrun, rfl⟩

theorem rxSinkFail_lands (hrole : s.role = .rx) (code : StorageCode) : Lands s.inbox (exec (.rxSinkFail code) s) := by
  rw [exec_rxSinkFail_of_live h.live, storageFailure_eq_rxEnded hrole]
  exact .next h
    (ended_rxEnded (by exact hrole) (.inr (.inr ⟨rfl, .inr (.inr (.inr rfl))⟩)) (fun _ _ => rfl) (by simp))

end

/-! ### The sender's rules -/

section
variable {s : State} (h : Sound s)
include h

/-- A sender session that ends FAILED for another cause than storage. -/
theorem terminate_failed_lands (hrun : TxRunning s) {code : Result}
    (hcode : code = .timeout ∨ code = .cancel ∨ code = .error) : Lands s.inbox (.next (s.terminate .failed code)) := by
  obtain ⟨-, hrole, -, hnone, -⟩ := hrun
  have herror : ¬(code = .ok ∨ code = .endOfTransfer) := by rcases hcode with rfl | rfl | rfl <;> simp
  have hne : code ≠ .storageError := by rcases hcode with rfl | rfl | rfl <;> simp
  rw [State.terminate_failed_eq_txEnded hrole herror]
  exact .next h
    (ended_txEnded hrole (.inr ⟨rfl, by tauto⟩) (fun _ _ => rfl) (no_storageCode_iff hnone hne))

/-- The start byte opens block 1 (R191, R192). -/
theorem handshake_lands (hrun : TxRunning s) (m : Mode) : Lands s.inbox (handshake m s) := by
  obtain ⟨-, -, -, -, -, hrule, -⟩ := id hrun
  obtain ⟨rule, hrule⟩ := Option.isSome_iff_exists.1 hrule
  rw [handshake_eq hrule]
  exact .next h ⟨⟨hrun, rfl, rfl, rfl, rfl⟩, _, rfl⟩

/-- Every byte in the handshake window (R90, R191 to R193). -/
theorem decodeHandshake_lands (hrun : TxRunning s) (htxst : s.txst = some .awaitHandshake) (hmode : s.mode = none)
    (hasked : s.srcAsked = false) (hph : s.ph = some .hs) (b : Byte) :
    Lands s.inbox (exec (decodeHandshake s.codes b) s) := by
  unfold decodeHandshake
  split_ifs
  · rw [exec, execTxHsCrq, live_of_running h.live]
    exact handshake_lands h hrun _
  · rw [exec, execTxHsNak, live_of_running h.live]
    exact handshake_lands h hrun _
  · rw [exec_txHsOther_of_live h.live]
    exact .next_of_ph hph h ⟨hrun, htxst, hmode, hasked, rfl⟩

/-- A chunk is framed for the current block, with the whole budget (R198, R199, R202). -/
theorem frameChunk_lands (hsend : TxSending s) {hdr : Byte} {p : Nat} {d : Bytes} (hpos : 1 ≤ d.length)
    (hpacket : (hdr = s.codes.soh ∧ p = Config.sohSize ∧ d.length ≤ Config.sohSize) ∨
      (hdr = s.codes.stx ∧ p = Config.stxSize ∧ Config.sohSize < d.length ∧ d.length ≤ Config.stxSize)) :
    Lands s.inbox (frameChunk hdr p d.length d s) := by
  obtain ⟨hrun, htxst, hmode, hblk, hasked⟩ := id hsend
  obtain ⟨-, -, -, -, -, -, k, hk, hkpos⟩ := id hrun
  obtain ⟨m, hm⟩ := Option.isSome_iff_exists.1 hmode
  obtain ⟨b, hb⟩ := Option.isSome_iff_exists.1 hblk
  have hle : d.length ≤ p := by
    rcases hpacket with ⟨-, rfl, hle⟩ | ⟨-, rfl, -, hle⟩
    · exact hle
    · exact hle
  rw [frameChunk_eq hb hm hk hle]
  exact .next h
    ⟨hsend, rfl, b, m, d, hdr, p, k, k, hb, hm, rfl, hpos, hpacket, rfl, rfl, hk, rfl, hkpos, Nat.le_refl k⟩

/-- A chunk that keeps the source's contract: EOT for none, else a packet of the size that holds it (R197 to R199). -/
theorem decodeChunk_lands (hsend : TxSending s) {n : Nat} {d : Bytes} (hle : n ≤ Config.maxChunk)
    (hlen : d.length = n) : Lands s.inbox (exec (decodeChunk n d) s) := by
  subst hlen
  have hkept : ¬(Config.maxChunk < d.length ∨ d.length ≠ d.length) := by simp [hle]
  rw [decodeChunk, if_neg hkept]
  split_ifs with hzero hsoh
  · rw [exec_txSrcEof_of_live h.live]
    exact .next h ⟨hsend, rfl⟩
  · rw [exec_txFrameSoh_of_live h.live]
    exact frameChunk_lands h hsend (by omega) (.inl ⟨rfl, rfl, hsoh⟩)
  · rw [exec_txFrameStx_of_live h.live]
    exact frameChunk_lands h hsend (by omega) (.inr ⟨rfl, rfl, by omega, hle⟩)

theorem txSrcFail_lands (hrole : s.role = .tx) (code : StorageCode) : Lands s.inbox (exec (.txSrcFail code) s) := by
  rw [exec_txSrcFail_of_live h.live, storageFailure_eq_txEnded hrole]
  exact .next h
    (ended_txEnded (by exact hrole) (.inr ⟨rfl, .inr (.inr (.inr rfl))⟩) (fun _ _ => rfl) (by simp))

/-- ACK opens the next block (R203). -/
theorem txRespAck_lands (hsend : TxSending s) {n : Nat} (hn : s.n = some n) : Lands s.inbox (exec .txRespAck s) := by
  obtain ⟨⟨hbusy, hrole, hresult, hcode, hstatus, hrule, hk⟩, htxst, hmode, hblk, hasked⟩ := hsend
  obtain ⟨b, hb⟩ := Option.isSome_iff_exists.1 hblk
  obtain ⟨rule, hrule'⟩ := Option.isSome_iff_exists.1 hrule
  rw [exec_txRespAck_eq h.live hn hb hrule']
  exact .next h
    ⟨⟨⟨hbusy, hrole, hresult, hcode, rfl, hrule, hk⟩, htxst, hmode, rfl, rfl⟩, _, rfl⟩

/-- A failed transmission sends the frame of the current block again or ends the session (R208). -/
theorem txFailAttempt_lands (hsend : TxSending s) (hframe : TxFrame s) {cause : Result} :
    Lands s.inbox (txFailAttempt cause s) := by
  obtain ⟨hrun, htxst, hmode, hblk, hasked⟩ := id hsend
  obtain ⟨hbusy, hrole, hresult, hcode, hstatus, hrule, hk⟩ := hrun
  obtain ⟨b, m, d, hdr, p, k, r, hb, hm, hn, hpos, hpacket, hf, hflen, hcfg, hr, hrpos, hrle⟩ := hframe
  have hle : d.length ≤ p := by
    rcases hpacket with ⟨-, rfl, hle⟩ | ⟨-, rfl, -, hle⟩
    · exact hle
    · exact hle
  have hflen' : s.flen = some (encodeFrame hdr b (pad d p) m).length := by
    rw [hflen, encodeFrame_length, pad_length hle]
  have hnext := txFailAttempt_eq hrole hr hrpos hf hflen' cause
  have hlands : ∀ t : State, t = failedTransmission cause r (encodeFrame hdr b (pad d p) m) s →
      Sound t ∧ PhaseInv t t.ph ∧ t.inbox = s.inbox := by
    rintro t rfl
    unfold failedTransmission
    split_ifs with hlast
    · exact ⟨h,
        ended_txEnded (by exact hrole) (.inr ⟨rfl, .inl rfl⟩) (fun _ _ => rfl)
          (no_storageCode_iff (by exact hcode) nofun), rfl⟩
    · exact ⟨h,
        ⟨⟨⟨hbusy, hrole, hresult, hcode, rfl, hrule, hk⟩, htxst, hmode, hblk, hasked⟩, rfl, b, m, d, hdr, p, k, r - 1,
          hb, hm, hn, hpos, hpacket, hf, hflen, hcfg, rfl, by omega, by omega⟩, rfl⟩
  exact ⟨_, hnext, hlands _ rfl⟩

/-- Every byte in answer to a data packet (R90, R203 to R205). -/
theorem decodeResponse_lands (hsend : TxSending s) (hframe : TxFrame s) (b : Byte) :
    Lands s.inbox (exec (decodeResponse s.codes b) s) := by
  unfold decodeResponse
  split_ifs
  · obtain ⟨-, -, d, -, -, -, -, -, -, hn, -⟩ := hframe
    exact txRespAck_lands h hsend hn
  · rw [exec_txRespCan_of_live h.live]
    exact .next h ⟨hsend, rfl, hframe⟩
  · rw [exec_txRespOther_of_live h.live]
    exact txFailAttempt_lands h hsend hframe

/-- Every byte after one CAN (R90, R206, R207). -/
theorem decodeResponseCan_lands (hsend : TxSending s) (hframe : TxFrame s) (b : Byte) :
    Lands s.inbox (exec (decodeResponseCan s.codes b) s) := by
  unfold decodeResponseCan
  split_ifs
  · rw [exec_txRespCanCan_of_live h.live]
    exact terminate_failed_lands h hsend.1 (.inr (.inl rfl))
  · rw [exec_txRespCanOther_of_live h.live]
    exact txFailAttempt_lands h hsend hframe

/-- Every byte in answer to EOT (R90, R209, R210, R213). -/
theorem decodeEot_lands (hsend : TxSending s) (b : Byte) : Lands s.inbox (exec (decodeEot s.codes b) s) := by
  obtain ⟨hrun, -⟩ := id hsend
  obtain ⟨-, hrole, -, hcode, -⟩ := id hrun
  unfold decodeEot
  split_ifs
  · rw [exec_txEotAck_of_live h.live, State.terminate_eq_txEnded hrole rfl]
    exact .next h
      (ended_txEnded hrole (.inl ⟨rfl, rfl⟩) (fun hne => absurd rfl hne) (no_storageCode_iff hcode nofun))
  · rw [exec_txEotCan_of_live h.live]
    exact .next h ⟨hsend, rfl⟩
  · rw [exec_txEotOther_of_live h.live]
    exact terminate_failed_lands h hrun (.inr (.inr rfl))

/-- Every byte after one CAN in answer to EOT (R90, R211). -/
theorem decodeEotCan_lands (hsend : TxSending s) (b : Byte) : Lands s.inbox (exec (decodeEotCan s.codes b) s) := by
  unfold decodeEotCan
  split_ifs
  · rw [exec_txEotCanCan_of_live h.live]
    exact terminate_failed_lands h hsend.1 (.inr (.inl rfl))
  · rw [exec_txEotCanOther_of_live h.live]
    exact terminate_failed_lands h hsend.1 (.inr (.inr rfl))

end

end Sys2Proof.Machine
end

section
/-! The invariant over a whole step: by the phase and the answer, START, the wait, and the faults; and what follows for an
environment that keeps its contract (10_state.md R43; 43_host.md R233, R234, R240; 60_exceptions.md R262). -/

namespace Sys2Proof.Machine

open Sys2Proof.Expected Sys2Proof.Safety

/-! ### Timeouts (R148, R153, R194, R205, R207, R211, R212) -/

section
variable {s : State} (h : Sound s)
include h

theorem rxHdrTimeout_lands (hrun : RxRunning s) : Lands s.inbox (exec .rxHdrTimeout s) := by
  rw [exec_rxHdrTimeout_of_live h.live]
  exact failAttempt_lands h hrun (.inl rfl)

theorem rxShortRead_lands (hrun : RxRunning s) : Lands s.inbox (exec .rxShortRead s) := by
  rw [exec_rxShortRead_of_live h.live]
  exact failAttempt_lands h hrun (.inl rfl)

theorem txHsTimeout_lands (hrun : TxRunning s) : Lands s.inbox (exec .txHsTimeout s) := by
  rw [exec_txHsTimeout_of_live h.live]
  exact terminate_failed_lands h hrun (.inl rfl)

theorem txRespTimeout_lands (hsend : TxSending s) (hframe : TxFrame s) :
    Lands s.inbox (exec (.txRespOther .timeout) s) := by
  rw [exec_txRespOther_of_live h.live]
  exact txFailAttempt_lands h hsend hframe

theorem txRespCanTimeout_lands (hsend : TxSending s) (hframe : TxFrame s) :
    Lands s.inbox (exec (.txRespCanOther .timeout) s) := by
  rw [exec_txRespCanOther_of_live h.live]
  exact txFailAttempt_lands h hsend hframe

theorem txEotTimeout_lands (hsend : TxSending s) : Lands s.inbox (exec .txEotTimeout s) := by
  rw [exec_txEotTimeout_of_live h.live]
  exact terminate_failed_lands h hsend.1 (.inl rfl)

theorem txEotCanTimeout_lands (hsend : TxSending s) : Lands s.inbox (exec (.txEotCanOther .timeout) s) := by
  rw [exec_txEotCanOther_of_live h.live]
  exact terminate_failed_lands h hsend.1 (.inl rfl)

end

/-! ### One event -/

/-- `k` answers a next state with the invariant; and where `clean` holds it has no fault and `rest` is still to come. -/
def KeepsInv (rest : List Event) (clean : Prop) (k : Step) : Prop :=
  ∃ t, k = .next t ∧ Safety.Inv t ∧ (clean → t.faulted = false ∧ t.inbox = rest)

theorem Lands.keepsInv {rest : List Event} {k : Step} (h : Lands rest k) (clean : Prop) : KeepsInv rest clean k := by
  obtain ⟨t, hk, ht, hphase, hinbox⟩ := h
  exact ⟨t, hk, (inv_iff_of_live ht.live).2 ⟨ht, hphase⟩, fun _ => ⟨ht.live, hinbox⟩⟩

theorem Sound.keepsInv_raise {s : State} (h : Sound s) {reason : FaultReason} (hreason : reason ≠ .unwritten)
    {rest : List Event} {clean : Prop} (hclean : ¬clean) : KeepsInv rest clean (.next (s.raise reason)) :=
  ⟨_, rfl, h.inv_raise hreason, fun hc => absurd hc hclean⟩

/-- START with a configuration within its bounds opens a session when the engine is idle, and any other START faults. -/
theorem start_keepsInv {s : State} {cfg : SessionCfg} (h : Sound s) {begin_ : State → State}
    (hbegin : inBounds cfg = true → Lands s.inbox (.next (begin_ (s.latch cfg)))) :
    KeepsInv s.inbox ((!s.busy && inBounds cfg) = true) (start cfg begin_ s) := by
  cases hbusy : s.busy
  · cases hcfg : inBounds cfg
    · rw [start_of_bad_config hbusy hcfg]
      exact h.keepsInv_raise (by decide) (by simp)
    · rw [start_of_idle hbusy hcfg]
      exact (hbegin hcfg).keepsInv _
  · rw [start_of_busy hbusy]
    exact h.keepsInv_raise (by decide) (by simp)

theorem sourceKeepsContract_srcData_iff {n : Nat} {d : Bytes} :
    sourceKeepsContract (.srcData n d) = true ↔ n ≤ Config.maxChunk ∧ d.length = n := by
  simp [sourceKeepsContract]

/-- A chunk that breaks the source's contract is TX.SRC.CONTRACT (R200). -/
theorem decodeChunk_of_broken {n : Nat} {d : Bytes} (h : ¬(n ≤ Config.maxChunk ∧ d.length = n)) :
    decodeChunk n d = .txSrcContract n d := by
  rw [decodeChunk, if_pos (by omega)]

section
variable {s : State} {a : Answer} {rest : List Event} (h : Sound s) (hi : s.inbox = .answer a :: rest)
include h hi

/-- The rule of a phase that takes the answer decides. -/
theorem Lands.step_keepsInv {q : Request} {p : Phase} {i : Instr} (hq : s.req = some q)
    (hl : legalAnswer q a = true) (hp : s.ph = some p) (hd : decode s.codes (.answerAt p a) = .ok i)
    (hlands : Lands rest (exec i ((s.setInbox rest).setReq none))) (clean : Prop) : KeepsInv rest clean (step s) := by
  rw [step_of_answer h.live hi hq hl hp hd]
  exact hlands.keepsInv clean

/-- A legal answer, by the phase and the answers its request admits. -/
theorem legal_answer_keepsInv {q : Request} {p : Phase} (hq : s.req = some q) (hl : legalAnswer q a = true)
    (hp : s.ph = some p) (hphase : PhaseInv s (some p)) :
    KeepsInv rest (sourceKeepsContract a = true) (step s) := by
  have hu : Sound ((s.setInbox rest).setReq none) := h
  have run := fun {i} hd hlands => Lands.step_keepsInv h hi (i := i) hq hl hp hd hlands (sourceKeepsContract a = true)
  cases p with
  | settle =>
    obtain ⟨hrun, -, hreq⟩ := hphase
    obtain rfl := Option.some.inj (hq.symm.trans hreq)
    obtain rfl := legalAnswer_delay_iff.1 hl
    exact run rfl (rxSettleElapsed_lands hu hrun)
  | hdr =>
    obtain ⟨hrun, hreq⟩ := hphase
    obtain rfl := Option.some.inj (hq.symm.trans hreq)
    obtain ⟨b, rfl⟩ | rfl := legalAnswer_rd_iff.1 hl
    · exact run rfl (decodeHeader_lands hu hrun b)
    · exact run rfl (rxHdrTimeout_lands hu hrun)
  | bnum =>
    obtain ⟨hrun, hreq, hsize⟩ := hphase
    obtain rfl := Option.some.inj (hq.symm.trans hreq)
    obtain ⟨b, rfl⟩ | rfl := legalAnswer_rd_iff.1 hl
    · exact run rfl (rxBnum_lands hu hrun hsize b)
    · exact run rfl (rxShortRead_lands hu hrun)
  | bcmp =>
    obtain ⟨hrun, hreq, hsize, hrblk⟩ := hphase
    obtain rfl := Option.some.inj (hq.symm.trans hreq)
    obtain ⟨b, rfl⟩ | rfl := legalAnswer_rd_iff.1 hl
    · exact run rfl (rxBcmp_lands hu hrun hsize hrblk b)
    · exact run rfl (rxShortRead_lands hu hrun)
  | data =>
    obtain ⟨hrun, hreq, p, i, hpacket, hidx, hlt, hfilled⟩ := hphase
    obtain rfl := Option.some.inj (hq.symm.trans hreq)
    obtain ⟨b, rfl⟩ | rfl := legalAnswer_rd_iff.1 hl
    · exact run rfl (rxData_lands hu hrun hpacket hidx hlt hfilled hp b)
    · exact run rfl (rxShortRead_lands hu hrun)
  | chk =>
    obtain ⟨hrun, hreq, p, m, i, hpacket, hfilled, hm, hk, hcidx, hlt, hchk⟩ := hphase
    obtain rfl := Option.some.inj (hq.symm.trans hreq)
    obtain ⟨b, rfl⟩ | rfl := legalAnswer_rd_iff.1 hl
    · exact run rfl (rxChk_lands hu hrun hpacket hfilled hm hk hcidx hlt hchk hp b)
    · exact run rfl (rxShortRead_lands hu hrun)
  | sink =>
    obtain ⟨hrun, -, b, bytes, -, hlen, -, hreq⟩ := hphase
    obtain rfl := Option.some.inj (hq.symm.trans hreq)
    obtain rfl | ⟨code, rfl⟩ := legalAnswer_sink_iff.1 hl
    · exact run rfl (rxSinkOk_lands hu hrun hlen)
    · obtain ⟨-, hrole, -⟩ := hrun
      exact run rfl (rxSinkFail_lands hu hrole code)
  | hs =>
    obtain ⟨hrun, htxst, hmode, hasked, hreq⟩ := hphase
    obtain rfl := Option.some.inj (hq.symm.trans hreq)
    obtain ⟨b, rfl⟩ | rfl := legalAnswer_rd_iff.1 hl
    · exact run rfl (decodeHandshake_lands hu hrun htxst hmode hasked hp b)
    · exact run rfl (txHsTimeout_lands hu hrun)
  | src =>
    obtain ⟨hsend, first, hreq⟩ := hphase
    obtain rfl := Option.some.inj (hq.symm.trans hreq)
    obtain ⟨n, d, rfl⟩ | ⟨code, rfl⟩ := legalAnswer_src_iff.1 hl
    · by_cases hkept : sourceKeepsContract (.srcData n d) = true
      · obtain ⟨hle, hlen⟩ := sourceKeepsContract_srcData_iff.1 hkept
        exact run rfl (decodeChunk_lands hu hsend hle hlen)
      · have hbroken := decodeChunk_of_broken (mt sourceKeepsContract_srcData_iff.2 hkept)
        rw [step_of_answer h.live hi hq hl hp (i := .txSrcContract n d) (congrArg _ hbroken), exec, execTxSrcContract,
          live_of_running hu.live]
        exact hu.keepsInv_raise (by decide) hkept
    · obtain ⟨⟨-, hrole, -⟩, -⟩ := hsend
      exact run rfl (txSrcFail_lands hu hrole code)
  | resp =>
    obtain ⟨hsend, hreq, hframe⟩ := hphase
    obtain rfl := Option.some.inj (hq.symm.trans hreq)
    obtain ⟨b, rfl⟩ | rfl := legalAnswer_rd_iff.1 hl
    · exact run rfl (decodeResponse_lands hu hsend hframe b)
    · exact run rfl (txRespTimeout_lands hu hsend hframe)
  | respCan =>
    obtain ⟨hsend, hreq, hframe⟩ := hphase
    obtain rfl := Option.some.inj (hq.symm.trans hreq)
    obtain ⟨b, rfl⟩ | rfl := legalAnswer_rd_iff.1 hl
    · exact run rfl (decodeResponseCan_lands hu hsend hframe b)
    · exact run rfl (txRespCanTimeout_lands hu hsend hframe)
  | eot =>
    obtain ⟨hsend, hreq⟩ := hphase
    obtain rfl := Option.some.inj (hq.symm.trans hreq)
    obtain ⟨b, rfl⟩ | rfl := legalAnswer_rd_iff.1 hl
    · exact run rfl (decodeEot_lands hu hsend b)
    · exact run rfl (txEotTimeout_lands hu hsend)
  | eotCan =>
    obtain ⟨hsend, hreq⟩ := hphase
    obtain rfl := Option.some.inj (hq.symm.trans hreq)
    obtain ⟨b, rfl⟩ | rfl := legalAnswer_rd_iff.1 hl
    · exact run rfl (decodeEotCan_lands hu hsend b)
    · exact run rfl (txEotCanTimeout_lands hu hsend)
  | term =>
    obtain ⟨-, hreq, -⟩ := hphase
    exact nomatch hq.symm.trans hreq

/-- Any answer: one that is not legal, or that nothing has asked for, faults. -/
theorem answer_keepsInv (hphase : PhaseInv s s.ph) : KeepsInv rest (legalEvent s (.answer a) = true) (step s) := by
  by_cases hl : ∃ q, s.req = some q ∧ legalAnswer q a = true
  · obtain ⟨q, hq, hl⟩ := hl
    cases hp : s.ph with
    | none =>
      rw [hp] at hphase
      obtain ⟨-, -, hreq, -⟩ := hphase
      exact nomatch hq.symm.trans hreq
    | some p =>
      rw [hp] at hphase
      obtain ⟨t, hstep, hinv, hclean⟩ := legal_answer_keepsInv h hi hq hl hp hphase
      refine ⟨t, hstep, hinv, fun hlegal => hclean ?_⟩
      simpa [legalEvent, hq, hl] using hlegal
  · have hill : ∀ q, s.req = some q → legalAnswer q a = false := fun q hq =>
      Bool.eq_false_iff.2 fun hlegal => hl ⟨q, hq, hlegal⟩
    have hillegal : ¬legalEvent s (.answer a) = true := by
      cases hq : s.req with
      | none => simp [legalEvent, hq]
      | some q => simp [legalEvent, hq, hill q hq]
    have hu : Sound (s.setInbox rest) := h
    rw [step_of_illegal_answer h.live hi hill]
    exact hu.keepsInv_raise (by decide) hillegal

end

/-- Whatever event comes, a live engine with the invariant answers a next state with the invariant. -/
theorem event_keepsInv {s : State} {e : Event} {rest : List Event} (h : Safety.Inv s) (hf : s.faulted = false)
    (hi : s.inbox = e :: rest) : KeepsInv rest (legalEvent s e = true) (step s) := by
  obtain ⟨hs, hphase⟩ := (inv_iff_of_live hf).1 h
  have hu : Sound (s.setInbox rest) := hs
  cases e with
  | startRx cfg =>
    rw [step_of_startRx hf hi, exec_hostStartRx_of_live hu.live]
    exact start_keepsInv hu (rxStart_lands hu)
  | startTx cfg =>
    rw [step_of_startTx hf hi, exec_hostStartTx_of_live hu.live]
    exact start_keepsInv hu (txStart_lands hu)
  | answer a => exact answer_keepsInv hs hi hphase

/-- A live engine with the invariant always answers a next state, and that keeps the invariant. -/
theorem step_keepsInv {s : State} (h : Safety.Inv s) (hf : s.faulted = false) :
    ∃ t, step s = .next t ∧ Safety.Inv t := by
  cases hi : s.inbox with
  | nil => exact ⟨s, step_of_no_event hf hi, h⟩
  | cons e rest =>
    obtain ⟨t, hstep, hinv, -⟩ := event_keepsInv h hf hi
    exact ⟨t, hstep, hinv⟩

end Sys2Proof.Machine

namespace Sys2Proof

open Sys2Proof.Machine Sys2Proof.Safety

/-! ### The statements -/

/-- Settles O21. A faulted engine answers no next state, and a live one keeps the invariant. -/
theorem everyStepKeepsTheInvariant : Obligations.EveryStepKeepsTheInvariant := by
  intro s t hinv hstep
  cases hf : s.faulted with
  | true => exact nomatch (step_of_faulted hf).symm.trans hstep
  | false =>
    obtain ⟨u, hstep', hu⟩ := step_keepsInv hinv hf
    obtain rfl := Host.Outcome.next.inj (hstep'.symm.trans hstep)
    exact hu

/-- Settles O22. -/
theorem contractKeepingEnvironmentNeverFaults : Obligations.ContractKeepingEnvironmentNeverFaults := by
  intro s e rest hinv hf hi hlegal
  obtain ⟨t, hstep, ht, hclean⟩ := event_keepsInv hinv hf hi
  obtain ⟨hlive, hinbox⟩ := hclean hlegal
  exact ⟨t, hstep, hlive, hinbox, ht⟩

/-- Settles O23. -/
theorem stepStopsOnlyWhenFaulted : Obligations.StepStopsOnlyWhenFaulted := by
  intro s hinv
  cases hf : s.faulted with
  | true =>
    rw [step_of_faulted hf]
    exact ⟨fun _ hfault => ⟨rfl, (Host.Outcome.fault.inj hfault).symm⟩, fun _ => nofun⟩
  | false =>
    obtain ⟨t, hstep, -⟩ := step_keepsInv hinv hf
    rw [hstep]
    exact ⟨fun _ => nofun, fun _ => nofun⟩

/-- Settles O20. -/
theorem invariantHoldsAtPowerOn : Obligations.InvariantHoldsAtPowerOn :=
  ⟨Codes.default_distinct, Memory.wf_reset.1, Memory.wf_reset.2, nofun, fun _ => ⟨rfl, rfl, rfl, rfl, rfl, rfl⟩⟩

end Sys2Proof
end

section
/-! A receiver fed a frame of the encoder (30_encoding.md R82; 40_codec.md R121; 41_receiver.md R143 to R156): the header,
the block number and its complement, the payload, the verification field, each as a run that takes its bytes. -/

namespace Sys2Proof.Machine

open Sys2Proof.Expected Sys2Proof.Safety

/-! ### Bytes stored one after another -/

/-- The array holds `bs` from index 0 on. -/
def Stores (m : List Host.Cell) (bs : Bytes) : Prop := ∀ i, i < bs.length → Memory.read m i = bs[i]?

theorem stores_nil (m : List Host.Cell) : Stores m [] := fun _ hi => absurd hi (Nat.not_lt_zero _)

theorem stores_write {m : List Host.Cell} {bs : Bytes} (h : Stores m bs) (b : Byte) :
    Stores (Memory.write m bs.length b) (bs ++ [b]) := by
  intro i hi
  rw [List.length_append, List.length_singleton] at hi
  by_cases hlast : i = bs.length
  · rw [hlast, Memory.read_write_same, List.getElem?_concat_length]
  · rw [Memory.read_write_other _ _ hlast, h i (by omega), List.getElem?_append_left (by omega)]

theorem slice_of_stores {m : List Host.Cell} {bs : Bytes} (h : Stores m bs) :
    Memory.slice m 0 bs.length = some bs := by
  refine Memory.slice_eq fun i hi => ?_
  rw [Nat.zero_add]
  exact h i hi

/-! ### What the receiver holds while a packet comes -/

/-- What is fixed while one packet is read: the mode, the text setting and the budget's ceiling. -/
structure ReceiverSetup where
  mode : Mode
  text : Bool
  tries : Nat

/-- A live receiver under the set-up `e` waits in phase `p` for a byte. -/
structure AwaitsByte (e : ReceiverSetup) (p : Phase) (s : State) : Prop where
  faulted : s.faulted = false
  ph : s.ph = some p
  req : s.req = some (.rd .char)
  mode : s.mode = some e.mode
  cfgRxText : s.cfgRxText = some e.text
  cfgRetryMax : s.cfgRetryMax = some e.tries

/-- The header has announced `size` bytes. -/
structure AwaitsBlockNumber (e : ReceiverSetup) (size : Nat) (s : State) : Prop extends AwaitsByte e .bnum s where
  psize : s.psize = some size

/-- Block number `b` has come. -/
structure AwaitsComplement (e : ReceiverSetup) (size : Nat) (b : Byte) (s : State) : Prop
    extends AwaitsByte e .bcmp s where
  psize : s.psize = some size
  rblk : s.rblk = some b

/-- Block number `b` and its complement have come, and the bytes `got` of the payload. -/
structure AwaitsPayload (e : ReceiverSetup) (size : Nat) (b : Byte) (got : Bytes) (s : State) : Prop
    extends AwaitsByte e .data s where
  psize : s.psize = some size
  rblk : s.rblk = some b
  rcblk : s.rcblk = some (~~~b)
  idx : s.idx = some got.length
  pbuf : Stores s.pbuf got

/-- The whole payload has come, and the bytes `got` of the verification field. -/
structure AwaitsCheck (e : ReceiverSetup) (b : Byte) (payload got : Bytes) (s : State) : Prop
    extends AwaitsByte e .chk s where
  psize : s.psize = some payload.length
  rblk : s.rblk = some b
  rcblk : s.rcblk = some (~~~b)
  pbuf : Stores s.pbuf payload
  chklen : s.chklen = some (checkLen e.mode)
  cidx : s.cidx = some got.length
  chkbuf : Stores s.chkbuf got

/-- The packet is verified, and the sink is asked to take it. -/
structure AwaitsSink (e : ReceiverSetup) (b : Byte) (payload : Bytes) (s : State) : Prop where
  faulted : s.faulted = false
  ph : s.ph = some .sink
  blk : s.blk = some b
  blkset : s.blkset = some true
  rxst : s.rxst = some .receiving
  retry : s.retry = some e.tries
  req : s.req = some (.sink b (payload.take (if e.text then trim payload else payload.length)))

/-! ### Runs that take a list of bytes -/

/-- The events that bring the bytes `bs`. -/
def byteEvents (bs : Bytes) : List Event := bs.map fun b => .answer (.byte b)

/-- A run that takes `full` byte by byte: each byte but the last adds to what has come, and the last one leads on. -/
theorem runsTo_bytes {P : Bytes → State → Prop} {Q : State → Prop} {full : Bytes}
    (hmore : ∀ {got b s rest}, (got ++ [b]).length < full.length → P got s → s.inbox = .answer (.byte b) :: rest →
      RunsTo 1 s (P (got ++ [b])) [] rest)
    (hlast : ∀ {got b s rest}, got ++ [b] = full → P got s → s.inbox = .answer (.byte b) :: rest →
      RunsTo 1 s Q [] rest)
    (todo : Bytes) {got : Bytes} {s : State} {rest : List Event} (hne : todo ≠ []) (hfull : got ++ todo = full)
    (h : P got s) (hi : s.inbox = byteEvents todo ++ rest) : RunsTo todo.length s Q [] rest := by
  induction todo generalizing got s with
  | nil => exact absurd rfl hne
  | cons b todo ih =>
    cases todo with
    | nil => exact hlast hfull h hi
    | cons b' todo =>
      have hfull' : (got ++ [b]) ++ b' :: todo = full := by rw [List.append_assoc, List.singleton_append, hfull]
      have hlt : (got ++ [b]).length < full.length := by
        rw [← hfull', List.length_append (bs := b' :: todo), List.length_cons]
        omega
      rw [List.length_cons, Nat.add_comm]
      exact (hmore hlt h hi).trans fun t ht hi' => ih (by simp) hfull' ht hi'

/-! ### The steps of the packet -/

section
variable {e : ReceiverSetup} {size : Nat} {b : Byte} {payload : Bytes} {s : State} {rest : List Event}

/-- A legal byte is read by the rule of the phase. -/
theorem AwaitsByte.step {p : Phase} {x : Byte} {i : Instr} (h : AwaitsByte e p s)
    (hi : s.inbox = .answer (.byte x) :: rest) (hd : decode s.codes (.answerAt p (.byte x)) = .ok i) :
    step s = exec i ((s.setInbox rest).setReq none) :=
  step_of_answer h.faulted hi h.req rfl h.ph hd

/-- A data header announces its payload size (R143, R144). -/
theorem AwaitsByte.runsTo_blockNumber {hdr : Byte} (h : AwaitsByte e .hdr s) (hdistinct : s.codes.distinct = true)
    (hhdr : hdr = s.codes.soh ∧ size = 128 ∨ hdr = s.codes.stx ∧ size = 1024)
    (hi : s.inbox = .answer (.byte hdr) :: rest) : RunsTo 1 s (AwaitsBlockNumber e size) [] rest := by
  have hsize : inferSize s.codes hdr = size := by
    rcases hhdr with ⟨rfl, rfl⟩ | ⟨rfl, rfl⟩
    · exact inferSize_soh _
    · exact inferSize_stx hdistinct
  have hexec : exec (decodeHeader s.codes hdr) ((s.setInbox rest).setReq none) =
      dataHeader hdr ((s.setInbox rest).setReq none) := by
    unfold decodeHeader
    rcases hhdr with ⟨rfl, -⟩ | ⟨rfl, -⟩
    · rw [if_pos rfl]
      exact exec_rxHdrSoh_of_live (by exact h.faulted)
    · rw [if_neg (Codes.ne_of_distinct hdistinct).1.symm, if_pos rfl]
      exact exec_rxHdrStx_of_live (by exact h.faulted)
  have hstep := (h.step hi (decode_hdr_byte ..)).trans (hexec.trans (dataHeader_eq ..))
  exact .of_step hstep ⟨⟨h.faulted, rfl, rfl, h.mode, h.cfgRxText, h.cfgRetryMax⟩, congrArg some hsize⟩
    ⟨(List.append_nil _).symm, rfl, rfl⟩

theorem AwaitsBlockNumber.runsTo_complement (h : AwaitsBlockNumber e size s)
    (hi : s.inbox = .answer (.byte b) :: rest) : RunsTo 1 s (AwaitsComplement e size b) [] rest := by
  have hstep := (h.step hi (decode_bnum_byte ..)).trans (exec_rxBnum_of_live (by exact h.faulted) b)
  exact .of_step hstep ⟨⟨h.faulted, rfl, rfl, h.mode, h.cfgRxText, h.cfgRetryMax⟩, h.psize, rfl⟩
    ⟨(List.append_nil _).symm, rfl, rfl⟩

theorem AwaitsComplement.runsTo_payload (h : AwaitsComplement e size b s)
    (hi : s.inbox = .answer (.byte (~~~b)) :: rest) : RunsTo 1 s (AwaitsPayload e size b []) [] rest := by
  have hstep := (h.step hi (decode_bcmp_byte ..)).trans (exec_rxBcmp_of_live (by exact h.faulted) _)
  exact .of_step hstep
    ⟨⟨h.faulted, rfl, rfl, h.mode, h.cfgRxText, h.cfgRetryMax⟩, h.psize, h.rblk, rfl, rfl, stores_nil _⟩
    ⟨(List.append_nil _).symm, rfl, rfl⟩

/-- A payload byte, for either outcome (R151). -/
theorem AwaitsPayload.step_data {got : Bytes} {d : Byte} (h : AwaitsPayload e size b got s)
    (hlt : got.length < Config.pbufSize) (hi : s.inbox = .answer (.byte d) :: rest) :
    step s = .next
      (if (got ++ [d]).length = size then
        { s with
          inbox := rest, pbuf := Memory.write s.pbuf got.length d, idx := some (got ++ [d]).length, cidx := some 0,
          chklen := some (checkLen e.mode), ph := some .chk, req := some (.rd .char) }
      else
        { s with
          inbox := rest, pbuf := Memory.write s.pbuf got.length d, idx := some (got ++ [d]).length,
          req := some (.rd .char) }) := by
  rw [h.step hi (decode_data_byte ..), exec_rxData_of_idx (by exact h.faulted) (by exact h.idx) hlt,
    afterPayloadByte_eq (by exact h.psize) (by exact h.mode), List.length_append, List.length_singleton]
  rfl

theorem AwaitsPayload.runsTo_more {got : Bytes} {d : Byte} (hle : payload.length ≤ Config.pbufSize)
    (hlt : (got ++ [d]).length < payload.length) (h : AwaitsPayload e payload.length b got s)
    (hi : s.inbox = .answer (.byte d) :: rest) :
    RunsTo 1 s (AwaitsPayload e payload.length b (got ++ [d])) [] rest := by
  have hpbuf : got.length < Config.pbufSize := by
    rw [List.length_append] at hlt
    omega
  have hstep := h.step_data hpbuf hi
  rw [if_neg (Nat.ne_of_lt hlt)] at hstep
  exact .of_step hstep
    ⟨⟨h.faulted, h.ph, rfl, h.mode, h.cfgRxText, h.cfgRetryMax⟩, h.psize, h.rblk, h.rcblk, rfl, stores_write h.pbuf d⟩
    ⟨(List.append_nil _).symm, rfl, rfl⟩

theorem AwaitsPayload.runsTo_check {got : Bytes} {d : Byte} (hle : payload.length ≤ Config.pbufSize)
    (hfull : got ++ [d] = payload) (h : AwaitsPayload e payload.length b got s)
    (hi : s.inbox = .answer (.byte d) :: rest) : RunsTo 1 s (AwaitsCheck e b payload []) [] rest := by
  have hpbuf : got.length < Config.pbufSize := by
    rw [← hfull, List.length_append, List.length_singleton] at hle
    omega
  have hstep := h.step_data hpbuf hi
  rw [if_pos (congrArg List.length hfull)] at hstep
  exact .of_step hstep
    ⟨⟨h.faulted, rfl, rfl, h.mode, h.cfgRxText, h.cfgRetryMax⟩, h.psize, h.rblk, h.rcblk, hfull ▸ stores_write h.pbuf d,
      rfl, rfl, stores_nil _⟩
    ⟨(List.append_nil _).symm, rfl, rfl⟩

/-- A byte of the verification field that is not the last (R152). -/
theorem AwaitsCheck.runsTo_more {got : Bytes} {v : Byte} (hlt : (got ++ [v]).length < checkLen e.mode)
    (h : AwaitsCheck e b payload got s) (hi : s.inbox = .answer (.byte v) :: rest) :
    RunsTo 1 s (AwaitsCheck e b payload (got ++ [v])) [] rest := by
  have hlen : (got ++ [v]).length = got.length + 1 := List.length_append
  have hle := checkLen_le e.mode
  have hstep := (h.step hi (decode_chk_byte ..)).trans (exec_rxChk_more (by exact h.faulted) (by exact h.cidx)
    (by omega) (by exact h.chklen) (by omega) v)
  exact .of_step hstep
    ⟨⟨h.faulted, h.ph, rfl, h.mode, h.cfgRxText, h.cfgRetryMax⟩, h.psize, h.rblk, h.rcblk, h.pbuf, h.chklen,
      congrArg some hlen.symm, stores_write h.chkbuf v⟩
    ⟨(List.append_nil _).symm, rfl, rfl⟩

/-- The last byte of the right verification field has the packet accepted (R152, R154 to R156). -/
theorem AwaitsCheck.runsTo_sink {got : Bytes} {v : Byte} (hle : payload.length ≤ Config.pbufSize)
    (hfull : got ++ [v] = chkBytes payload e.mode) (h : AwaitsCheck e b payload got s)
    (hi : s.inbox = .answer (.byte v) :: rest) : RunsTo 1 s (AwaitsSink e b payload) [] rest := by
  have hlen : got.length + 1 = checkLen e.mode := by
    rw [← chkBytes_length payload, ← hfull, List.length_append, List.length_singleton]
  have hchkbuf : got.length < Config.chkbufSize := by
    have := checkLen_le e.mode
    omega
  have hk : s.chklen = some (got.length + 1) := hlen ▸ h.chklen
  have hpayload := slice_of_stores h.pbuf
  have hfield := slice_of_stores (stores_write h.chkbuf v)
  rw [hfull, chkBytes_length] at hfield
  have heval := evaluate_eq_accept
    (s := (((s.setInbox rest).setReq none).setChkbuf (Memory.write s.chkbuf got.length v)).setCidx
      (some (got.length + 1))) h.rblk h.rcblk h.psize hle hpayload h.mode h.chklen (checkLen_le e.mode) hfield
  rw [accept_eq (by exact h.cfgRetryMax) (by exact h.rblk) (by exact h.cfgRxText) (by exact h.psize) hle
    (by exact hpayload)] at heval
  have hstep := (h.step hi (decode_chk_byte ..)).trans
    ((exec_rxChk_last (by exact h.faulted) (by exact h.cidx) hchkbuf (by exact hk) v).trans heval)
  exact .of_step hstep ⟨h.faulted, rfl, rfl, rfl, rfl, rfl, rfl⟩ ⟨(List.append_nil _).symm, rfl, rfl⟩

/-! ### The whole packet -/

/-- A frame of the encoder, in the receiver's own mode, is taken whole and handed to the sink. -/
theorem AwaitsByte.runsTo_sink {hdr : Byte} (h : AwaitsByte e .hdr s) (hdistinct : s.codes.distinct = true)
    (hhdr : hdr = s.codes.soh ∧ payload.length = 128 ∨ hdr = s.codes.stx ∧ payload.length = 1024)
    (hi : s.inbox = byteEvents (encodeFrame hdr b payload e.mode) ++ rest) :
    RunsTo (encodeFrame hdr b payload e.mode).length s (AwaitsSink e b payload) [] rest := by
  have hle : payload.length ≤ Config.pbufSize := by rcases hhdr with ⟨-, h⟩ | ⟨-, h⟩ <;> rw [h] <;> decide
  have hne : payload ≠ [] := by
    rintro rfl
    simp at hhdr
  have hne' : chkBytes payload e.mode ≠ [] := by cases e.mode <;> simp [chkBytes]
  have hsplit : s.inbox = .answer (.byte hdr) :: .answer (.byte b) :: .answer (.byte (~~~b)) ::
      (byteEvents payload ++ (byteEvents (chkBytes payload e.mode) ++ rest)) := by
    rw [hi, encodeFrame]
    simp [byteEvents]
  have hlen : (encodeFrame hdr b payload e.mode).length =
      1 + (1 + (1 + (payload.length + (chkBytes payload e.mode).length))) := by
    rw [encodeFrame_length, chkBytes_length]
    omega
  rw [hlen]
  exact (h.runsTo_blockNumber hdistinct hhdr hsplit).trans fun _ h hi =>
    (h.runsTo_complement hi).trans fun _ h hi => (h.runsTo_payload hi).trans fun _ h hi =>
    (runsTo_bytes (P := AwaitsPayload e payload.length b) (full := payload) (fun hlt h hi => h.runsTo_more hle hlt hi)
      (fun hfull h hi => h.runsTo_check hle hfull hi) payload hne rfl h hi).trans fun _ h hi =>
    runsTo_bytes (P := AwaitsCheck e b payload) (full := chkBytes payload e.mode)
      (fun hlt h hi => h.runsTo_more (chkBytes_length payload e.mode ▸ hlt) hi)
      (fun hfull h hi => h.runsTo_sink hle hfull hi) _ hne' rfl h hi

end

end Sys2Proof.Machine

namespace Sys2Proof

open Sys2Proof.Machine Sys2Proof.Safety

/-! ### The statement -/

/-- Settles O59. The invariant gives the receiver's request and its budget; the run is the chain of the packet's parts. -/
theorem receiverAcceptsEveryEncodedFrame : Obligations.ReceiverAcceptsEveryEncodedFrame := by
  intro s hdr b payload m text rest hinv hf hph hm htext hhdr hi
  obtain ⟨hs, hphase⟩ := (inv_iff_of_live hf).1 hinv
  rw [hph] at hphase
  obtain ⟨⟨-, -, -, -, -, -, -, ⟨-, k, -, hk, -, -⟩, -⟩, hreq⟩ := hphase
  have hawaits : AwaitsByte ⟨m, text, k⟩ .hdr s := ⟨hf, hph, hreq, hm, htext, hk⟩
  obtain ⟨t, hrun, ht, hemit⟩ := hawaits.runsTo_sink hs.codes hhdr hi
  exact ⟨t, hrun, ht.faulted, ht.ph, hemit.inbox, hemit.out.trans (List.append_nil _), ht.blk, ht.blkset, ht.rxst,
    ht.retry.trans hk.symm, ht.req⟩

end Sys2Proof
end

section
/-! What an instruction writes (the Writes lines of 41_receiver.md, 42_sender.md and 43_host.md; 20_memory.md R60): for
each instruction the registers its rule names, and for all of them the registers of the session's course. -/

namespace Sys2Proof.Machine

open Sys2Proof.Safety

/-! ### Every next state -/

/-- Every next state that `k` answers has `P`. -/
def Answers (k : Step) (P : State → Prop) : Prop := ∀ t, k = .next t → P t

namespace Answers

variable {P : State → Prop}

theorem next {u : State} (h : P u) : Answers (.next u) P := by
  rintro t ⟨⟩
  exact h

theorem fault (e : Fault) : Answers (.fault e) P := by
  rintro t ⟨⟩

theorem mono {Q : State → Prop} {k : Step} (h : Answers k P) (hPQ : ∀ t, P t → Q t) : Answers k Q :=
  fun t ht => hPQ t (h t ht)

theorem ite {c : Prop} [Decidable c] {k k' : Step} (h : Answers k P) (h' : Answers k' P) :
    Answers (if c then k else k') P := by
  split
  · exact h
  · exact h'

theorem live {s : State} {k : Step} (h : Answers k P) : Answers (Machine.live s k) P := ite (fault _) h

theorem need {α : Type} {s : State} {v : Option α} {k : α → Step} (hnone : P (s.raise .unwritten))
    (h : ∀ x, Answers (k x) P) : Answers (s.need v k) P := by
  cases v with
  | none => exact next hnone
  | some x => exact h x

theorem needSlice {s : State} {size len : Nat} {mem : List Host.Cell} {k : Bytes → Step}
    (hnone : P (s.raise .unwritten)) (h : ∀ bs, Answers (k bs) P) : Answers (s.needSlice size mem len k) P :=
  ite (need hnone h) (fault _)

theorem storeByte {size a : Nat} {mem : List Host.Cell} {b : Byte} {k : List Host.Cell → Step}
    (h : ∀ mem', Answers (k mem') P) : Answers (Machine.storeByte size mem a b k) P :=
  ite (h _) (fault _)

end Answers

/-! ### The course of a session -/

/-- `t` is `u` after emitting bytes that have `E`. -/
def Emits (E : Out → Prop) (u t : State) : Prop := ∃ o, t.out = u.out ++ o ∧ ∀ x ∈ o, E x

section
variable {E : Out → Prop} {u t : State}

theorem Emits.nothing (h : t.out = u.out) : Emits E u t := ⟨[], h.trans (List.append_nil _).symm, nofun⟩

theorem Emits.one {x : Out} (hx : E x) (h : t.out = u.out ++ [x]) : Emits E u t :=
  ⟨[x], h, fun _ hy => List.mem_singleton.1 hy ▸ hx⟩

theorem Emits.all {o : List Out} (ho : ∀ x ∈ o, E x) (h : t.out = u.out ++ o) : Emits E u t := ⟨o, h, ho⟩

end

/-- From `u` to `t` only the registers of a session's course change, and the bytes emitted have `E`: the session goes on,
or it ends by `terminate` (R254). -/
inductive Course (E : Out → Prop) (u t : State) : Prop
  | goesOn
    (frame : t = { u with
      busy := t.busy, ph := t.ph, req := t.req, status := t.status, result := t.result, faulted := t.faulted,
      faultReason := t.faultReason, out := t.out })
    (out : Emits E u t)
  | ends (v : State) (e : EndState) (code : Result) (frame : v = { u with out := v.out }) (out : Emits E u v)
    (end_ : t = v.terminate e code)

/-- From `s` a step writes STATUS and the registers that `own` takes from its second argument, and then runs its course
to `t`. -/
def Writes (E : Out → Prop) (own : State → State → State) (s t : State) : Prop :=
  ∃ u, u = own { s with status := u.status } u ∧ Course E u t

theorem Writes.of_own {E : Out → Prop} {own own' : State → State → State} {s s' t : State} (h : Writes E own s' t)
    (hown : ∀ u, u = own { s' with status := u.status } u → u = own' { s with status := u.status } u) :
    Writes E own' s t := by
  obtain ⟨u, hu, hcourse⟩ := h
  exact ⟨u, hown u hu, hcourse⟩

/-- The state `s` with the registers that the rule of an instruction names taken from `t`: the Writes lines of the spec,
without the registers of the session's course. -/
def ownWrites (i : Instr) (s t : State) : State :=
  match i with
  | .rxHdrSoh | .rxHdrStx => { s with psize := t.psize }
  | .rxHdrOther _ | .rxHdrTimeout | .rxShortRead => { s with mode := t.mode, retry := t.retry }
  | .rxBnum _ => { s with rblk := t.rblk }
  | .rxBcmp _ => { s with rcblk := t.rcblk, idx := t.idx }
  | .rxData _ => { s with pbuf := t.pbuf, idx := t.idx, cidx := t.cidx, chklen := t.chklen }
  | .rxChk _ =>
    { s with
      chkbuf := t.chkbuf, cidx := t.cidx, mode := t.mode, retry := t.retry, blk := t.blk, blkset := t.blkset,
      rxst := t.rxst, l := t.l }
  | .rxSinkOk => { s with bytes := t.bytes }
  | .rxSinkFail _ | .txSrcFail _ => { s with storageCode := t.storageCode }
  | .txHsCrq | .txHsNak => { s with mode := t.mode, blk := t.blk, txst := t.txst, srcAsked := t.srcAsked }
  | .txFrameSoh _ _ | .txFrameStx _ _ => { s with n := t.n, frame := t.frame, flen := t.flen, tretry := t.tretry }
  | .txRespAck => { s with bytes := t.bytes, blk := t.blk, srcAsked := t.srcAsked }
  | .txRespOther _ | .txRespCanOther _ => { s with tretry := t.tretry }
  | .hostStartRx _ =>
    { s with
      role := t.role, bytes := t.bytes, storageCode := t.storageCode, cfgRetryMax := t.cfgRetryMax,
      cfgTxRetryMax := t.cfgTxRetryMax, cfgRxInitMode := t.cfgRxInitMode, cfgRxText := t.cfgRxText,
      cfgFirstTagRule := t.cfgFirstTagRule, rxst := t.rxst, mode := t.mode, retry := t.retry, blkset := t.blkset,
      blk := t.blk, psize := t.psize, idx := t.idx, rblk := t.rblk, rcblk := t.rcblk, chkbuf := t.chkbuf,
      cidx := t.cidx, chklen := t.chklen, l := t.l, pbuf := t.pbuf }
  | .hostStartTx _ =>
    { s with
      role := t.role, bytes := t.bytes, storageCode := t.storageCode, cfgRetryMax := t.cfgRetryMax,
      cfgTxRetryMax := t.cfgTxRetryMax, cfgRxInitMode := t.cfgRxInitMode, cfgRxText := t.cfgRxText,
      cfgFirstTagRule := t.cfgFirstTagRule, txst := t.txst, mode := t.mode, blk := t.blk, tretry := t.tretry, n := t.n,
      frame := t.frame, flen := t.flen, srcAsked := t.srcAsked }
  | .hostSrc _ _ => { s with srcAsked := t.srcAsked }
  | .crc16Update _ _ | .crc16 _ _ | .cksum _ | .inferSize _ | .checkLen _
  | .chkBytes _ _ | .verify _ _ _ | .blkchk _ _ | .pad _ _ | .encodeFrame _ _ _ _
  | .sizeSelect _ | .trim _ | .startByte _ | .firstTag _ => { s with dp := t.dp }
  | _ => s

/-- What an instruction may emit: of the receiver's rules, NAK and CRQ after a failed attempt and the settle delay, ACK to
EOT and to the sink's success, and CAN when the sink fails; nothing by its other rules. -/
def mayEmit (codes : Codes) : Instr → Out → Prop
  | .rxHdrOther _ | .rxHdrTimeout | .rxShortRead | .rxChk _ | .rxSettleElapsed =>
    fun x => x = .wr codes.nak ∨ x = .wr codes.crq
  | .rxHdrEot | .rxSinkOk => fun x => x = .wr codes.ack
  | .rxSinkFail _ => fun x => x = .wr codes.can
  | .rxHdrSoh | .rxHdrStx | .rxHdrCan | .rxBnum _ | .rxBcmp _ | .rxData _ => fun _ => False
  | _ => fun _ => True

/-! ### What each procedure writes -/

/-- ACCEPT and FAIL_ATTEMPT write these registers between them (R156, R159 to R162). -/
def evaluationWrites (s t : State) : State :=
  { s with mode := t.mode, retry := t.retry, blk := t.blk, blkset := t.blkset, rxst := t.rxst, l := t.l }

namespace Writes

variable {E : Out → Prop} {own : State → State → State} {s : State}

/-! Leaves: the state `u` that has the instruction's writes, with the last writes of the session's course. -/

section
variable {u : State} (hu : u = own { s with status := u.status } u)
include hu

theorem same : Writes E own s u := ⟨u, hu, .goesOn rfl (.nothing rfl)⟩

theorem emit {b : Byte} (hb : E (.wr b)) : Writes E own s (u.emit b) := ⟨u, hu, .goesOn rfl (.one hb rfl)⟩

theorem emitFlush (hflush : E .flush) : Writes E own s u.emitFlush := ⟨u, hu, .goesOn rfl (.one hflush rfl)⟩

theorem emitBuf {bs : Bytes} (hbs : ∀ x, E x) : Writes E own s (u.emitBuf bs) :=
  ⟨u, hu, .goesOn rfl (.all (fun x _ => hbs x) rfl)⟩

theorem raise (reason : FaultReason) : Writes E own s (u.raise reason) := ⟨u, hu, .goesOn rfl (.nothing rfl)⟩

theorem request {q : Request} (hq : isSrc q = false) : Writes E own s (u.request q) := by
  rw [State.request_of_not_src hq]
  exact ⟨u, hu, .goesOn rfl (.nothing rfl)⟩

theorem setPh_request {q : Request} (hq : isSrc q = false) (p : Option Phase) :
    Writes E own s ((u.setPh p).request q) := by
  rw [State.request_of_not_src hq]
  exact ⟨u, hu, .goesOn rfl (.nothing rfl)⟩

theorem emit_awaitHeader {b : Byte} (hb : E (.wr b)) : Writes E own s (u.emit b).awaitHeader := by
  rw [State.awaitHeader_eq]
  exact ⟨u, hu, .goesOn rfl (.one hb rfl)⟩

theorem emitBuf_awaitResponse {bs : Bytes} (hbs : ∀ x, E x) : Writes E own s (u.emitBuf bs).awaitResponse := by
  rw [State.awaitResponse_eq]
  exact ⟨u, hu, .goesOn rfl (.all (fun x _ => hbs x) rfl)⟩

theorem terminate (e : EndState) (code : Result) : Writes E own s (u.terminate e code) :=
  ⟨u, hu, .ends u e code rfl (.nothing rfl) rfl⟩

end

theorem emitAbort (hs : s = own s s) (hcan : E (.wr s.codes.can)) : Writes E own s s.emitAbort := by
  have hout : ∀ x ∈ [Out.wr s.codes.can, .wr s.codes.can], E x := by simpa using hcan
  rw [State.emitAbort_eq]
  exact ⟨s, hs, .goesOn rfl (.all hout rfl)⟩

/-! The receiver's procedures. -/

theorem fallbackOk (hown : s = own s s) {cause : Result} {k : Bool → Step}
    (h : ∀ ok, Answers (k ok) (Writes E own s)) : Answers (Machine.fallbackOk cause s k) (Writes E own s) :=
  .ite (.need (raise hown _) fun _ => .ite (h _) (.need (raise hown _) fun _ => h _)) (h _)

section
variable (hnak : E (.wr s.codes.nak)) (hcrq : E (.wr s.codes.crq))

section
include hnak

theorem fallback : Answers (Machine.fallback s) (Writes E (ownWrites .rxShortRead) s) :=
  .need (raise rfl _) fun _ => .next (emit_awaitHeader rfl hnak)

include hcrq

theorem startByte (m : Mode) : E (.wr (Machine.startByte s.codes m)) := by
  cases m
  · exact hnak
  · exact hcrq

theorem retryResponse (hown : s = own s s) (cause : Result) :
    Answers (Machine.retryResponse cause s) (Writes E own s) :=
  .ite (.next (emit_awaitHeader hown hnak)) (.need (raise hown _) fun _ => .ite (.next (emit_awaitHeader hown hnak))
    (.need (raise hown _) fun m => .next (emit_awaitHeader hown (startByte hnak hcrq m))))

theorem afterFailure (cause : Result) (left : Nat) :
    Answers (Machine.afterFailure cause left s) (Writes E (ownWrites .rxShortRead) s) :=
  .ite (fallbackOk rfl fun _ => .ite (fallback hnak) (.next (terminate rfl _ _)))
    (retryResponse hnak hcrq rfl cause)

theorem failAttempt (cause : Result) : Answers (Machine.failAttempt cause s) (Writes E (ownWrites .rxShortRead) s) := by
  refine .need (raise rfl _) fun r => ?_
  refine (afterFailure (s := (s.setStatus (some cause)).setRetry (some (r - 1))) hnak hcrq cause (r - 1)).mono
    fun t h => h.of_own fun u hu => ?_
  rw [hu]
  rfl

end

theorem handToSink (b : Byte) : Answers (Machine.handToSink b s) (Writes E evaluationWrites s) :=
  .need (raise rfl _) fun _ => .need (raise rfl _) fun _ => .needSlice (raise rfl _) fun _ =>
    .next (setPh_request rfl rfl _)

theorem accept : Answers (Machine.accept s) (Writes E evaluationWrites s) := by
  refine .need (raise rfl _) fun r => .need (raise rfl _) fun b => ?_
  refine (handToSink b).mono fun t h => h.of_own fun u hu => ?_
  rw [hu]
  simp only [evaluationWrites, State.setRxst, State.setBlkset, State.setBlk, State.setRetry, State.setStatus]

include hnak hcrq

theorem evaluate : Answers (Machine.evaluate s) (Writes E evaluationWrites s) := by
  have hfail : Answers (Machine.failAttempt .crcError s) (Writes E evaluationWrites s) := by
    refine (failAttempt hnak hcrq .crcError).mono fun t h => h.of_own fun u hu => ?_
    rw [hu]
    rfl
  exact .need (raise rfl _) fun _ => .need (raise rfl _) fun _ => .ite
    (.need (raise rfl _) fun _ => .needSlice (raise rfl _) fun _ => .need (raise rfl _) fun _ =>
      .need (raise rfl _) fun _ => .needSlice (raise rfl _) fun _ => .ite hfail accept) hfail

theorem afterCheckByte (i : Nat) : Answers (Machine.afterCheckByte i s) (Writes E evaluationWrites s) :=
  .need (raise rfl _) fun _ => .ite (evaluate hnak hcrq) (.next (request rfl rfl))

theorem rxChk (v : Byte) : Answers (exec (.rxChk v) s) (Writes E (ownWrites (.rxChk v)) s) := by
  refine .live (.need (raise rfl _) fun i => .storeByte fun mem => ?_)
  refine (afterCheckByte (s := (s.setChkbuf mem).setCidx (some (i + 1))) hnak hcrq (i + 1)).mono
    fun t h => h.of_own fun u hu => ?_
  rw [hu]
  rfl

end

theorem rxData (d : Byte) : Answers (exec (.rxData d) s) (Writes E (ownWrites (.rxData d)) s) :=
  .live (.need (raise rfl _) fun _ => .storeByte fun _ => .need (raise rfl _) fun _ =>
    .ite (.need (raise rfl _) fun _ => .next (setPh_request rfl rfl _)) (.next (request rfl rfl)))

/-! The sender's procedures. -/

theorem blockStart : Answers (Machine.blockStart s) (Writes E (fun s t => { s with srcAsked := t.srcAsked }) s) := by
  have hraise : Writes E (fun s t => { s with srcAsked := t.srcAsked }) s ((s.setPh (some .src)).raise .unwritten) :=
    ⟨s, rfl, .goesOn rfl (.nothing rfl)⟩
  exact .need hraise fun b => .need hraise fun rule => .next
    ⟨s.setSrcAsked (s.srcAsked || true), rfl, .goesOn rfl (.nothing rfl)⟩

theorem sendFrame (hE : ∀ x, E x) : Answers (Machine.sendFrame s) (Writes E (fun s _ => s) s) :=
  .need (raise rfl _) fun _ => .need (raise rfl _) fun _ => .ite (.next (emitBuf_awaitResponse rfl hE))
    (.next (raise rfl _))

theorem frameChunk (hE : ∀ x, E x) (hdr : Byte) (p n : Nat) (d : Bytes) :
    Answers (Machine.frameChunk hdr p n d s) (Writes E (ownWrites (.txFrameSoh n d)) s) := by
  refine .need (raise rfl _) fun b => .need (raise rfl _) fun m => .need (raise rfl _) fun k => ?_
  refine (sendFrame hE).mono fun t h => h.of_own fun u hu => ?_
  rw [hu]
  rfl

theorem txFailAttempt (hE : ∀ x, E x) (cause : Result) :
    Answers (Machine.txFailAttempt cause s) (Writes E (ownWrites (.txRespOther .timeout)) s) := by
  refine .need (raise rfl _) fun r => .ite (.next (terminate rfl _ _)) ?_
  refine (sendFrame hE).mono fun t h => h.of_own fun u hu => ?_
  rw [hu]
  rfl

theorem handshake (m : Mode) : Answers (Machine.handshake m s) (Writes E (ownWrites .txHsCrq) s) := by
  refine blockStart.mono fun t h => h.of_own fun u hu => ?_
  rw [hu]
  rfl

theorem txRespAck : Answers (exec .txRespAck s) (Writes E (ownWrites .txRespAck) s) := by
  refine .live (.need (raise rfl _) fun n => .need (raise rfl _) fun b => ?_)
  refine blockStart.mono fun t h => h.of_own fun u hu => ?_
  rw [hu]
  rfl

/-! Storage failures, and START. -/

theorem storageFailure (hcan : E (.wr s.codes.can)) (code : StorageCode) :
    Answers (Machine.storageFailure code s) (Writes E (ownWrites (.rxSinkFail code)) s) := by
  have hout : ∀ x ∈ [Out.wr s.codes.can, .wr s.codes.can], E x := by simpa using hcan
  refine .next ⟨s.setStorageCode (some code), rfl, ?_⟩
  rw [State.emitAbort_eq]
  exact .ends _ _ _ rfl (.all hout rfl) rfl

theorem start (hown : s = own s s) (cfg : SessionCfg) {begin_ : State → State}
    (h : Writes E own s (begin_ (s.latch cfg))) : Answers (Machine.start cfg begin_ s) (Writes E own s) :=
  .ite (.next (raise hown _)) (.ite (.next h) (.next (raise hown _)))

theorem rxStart (cfg : SessionCfg) : Writes E (ownWrites (.hostStartRx cfg)) s (s.latch cfg).rxStart := by
  rw [State.latch_eq, State.rxStart_eq]
  generalize ht : (State.mk ..) = t
  refine ⟨{ t with busy := s.busy, ph := s.ph, req := s.req, result := s.result }, ?_, .goesOn rfl (.nothing rfl)⟩
  rw [← ht]
  rfl

theorem txStart (hflush : E .flush) (cfg : SessionCfg) :
    Writes E (ownWrites (.hostStartTx cfg)) s (s.latch cfg).txStart := by
  rw [State.latch_eq, State.txStart_eq]
  generalize ht : (State.mk ..) = t
  refine ⟨{ t with busy := s.busy, ph := s.ph, req := s.req, result := s.result, out := s.out }, ?_,
    .goesOn rfl (.one hflush ?_)⟩
  · rw [← ht]
    rfl
  · rw [← ht]

end Writes

/-- By instruction: what it writes of its own, and what it may emit. -/
theorem exec_writes (s : State) : ∀ i : Instr, Answers (exec i s) (Writes (mayEmit s.codes i) (ownWrites i) s)
  | .rxHdrSoh | .rxHdrStx => .live (.next (.setPh_request rfl rfl _))
  | .rxHdrEot => .live (.next ⟨s, rfl, .ends _ _ _ rfl (.one rfl rfl) rfl⟩)
  | .rxHdrCan => .live (.next (.terminate rfl _ _))
  | .rxHdrOther _ | .rxHdrTimeout | .rxShortRead => .live (Writes.failAttempt (.inl rfl) (.inr rfl) _)
  | .rxBnum _ | .rxBcmp _ => .live (.next (.setPh_request rfl rfl _))
  | .rxData d => Writes.rxData d
  | .rxChk v => Writes.rxChk (.inl rfl) (.inr rfl) v
  | .rxSinkOk => .live (.need (.raise rfl _) fun _ => .next (.emit_awaitHeader rfl rfl))
  | .rxSinkFail code => .live (Writes.storageFailure (E := (· = .wr s.codes.can)) rfl code)
  | .rxSettleElapsed =>
    .live (.need (.raise rfl _) fun m => .next (.emit_awaitHeader rfl (Writes.startByte (.inl rfl) (.inr rfl) m)))
  | .rxEmitCrq | .rxEmitNak | .rxEmitAck | .txEmitEot | .hostWr _ => .live (.next (.emit rfl trivial))
  | .rxEmitAbort | .txEmitAbort => .live (.next (.emitAbort rfl trivial))
  | .txEmitFlush | .hostFlush => .live (.next (.emitFlush rfl trivial))
  | .hostWrbuf _ => .live (.next (.emitBuf rfl fun _ => trivial))
  | .txHsCrq | .txHsNak => .live (Writes.handshake _)
  | .txHsOther _ => .live (.next (.request rfl rfl))
  | .txSrcEof => by
    refine .live (.next ?_)
    rw [State.request_of_not_src rfl]
    exact ⟨s, rfl, .goesOn rfl (.one trivial rfl)⟩
  | .txFrameSoh _ _ | .txFrameStx _ _ => .live (Writes.frameChunk (fun _ => trivial) _ _ _ _)
  | .txSrcContract _ _ => .live (.next (.raise rfl _))
  | .txSrcFail code => .live (Writes.storageFailure trivial code)
  | .txRespAck => Writes.txRespAck
  | .txRespCan | .txEotCan => .live (.next (.setPh_request rfl rfl _))
  | .txRespOther _ | .txRespCanOther _ => .live (Writes.txFailAttempt (fun _ => trivial) _)
  | .txHsTimeout | .txRespCanCan | .txEotAck | .txEotTimeout | .txEotOther _ | .txEotCanCan | .txEotCanOther _ =>
    .live (.next (.terminate rfl _ _))
  | .hostStartRx cfg => .live (Writes.start rfl cfg (.rxStart cfg))
  | .hostStartTx cfg => .live (Writes.start rfl cfg (.txStart trivial cfg))
  | .hostRd _ | .hostDelay | .hostSink _ _ => .live (.next (.request rfl rfl))
  | .hostSrc _ _ => .live (.next ⟨s.setSrcAsked (s.srcAsked || true), rfl, .goesOn rfl (.nothing rfl)⟩)
  | .crc16Update _ _ | .crc16 _ _ | .cksum _ | .inferSize _ | .checkLen _ | .chkBytes _ _ | .verify _ _ _
  | .blkchk _ _ | .pad _ _ | .encodeFrame _ _ _ _ | .sizeSelect _ | .trim _ | .startByte _ => .live (.next (.same rfl))
  | .firstTag _ => .live (.need (.raise rfl _) fun _ => .next (.same rfl))

end Sys2Proof.Machine
end

section
/-! What follows from the writes of each instruction: the frames of the receiver's and the sender's steps, the buffers, the
configuration, the output history, LAST_ERROR and BYTES (10_state.md R36 to R42; 20_memory.md R60, R66; 60_exceptions.md
R254). -/

namespace Sys2Proof.Machine

open Sys2Proof.Safety

/-! ### The registers of a session's course -/

/-- The state `w` with the registers of a session's course taken from `t`. -/
def State.onCourse (w t : State) : State :=
  { w with
    busy := t.busy, rxst := t.rxst, txst := t.txst, ph := t.ph, req := t.req, status := t.status, result := t.result,
    lastError := t.lastError, faulted := t.faulted, faultReason := t.faultReason, out := t.out }

section
variable {E : Out → Prop} {u t : State} (h : Course E u t)
include h

theorem Course.eq_onCourse : t = u.onCourse t := by
  cases h with
  | goesOn frame _ =>
    rw [frame]
    rfl
  | ends v e code frame _ end_ =>
    rw [end_, State.terminate_eq, frame]
    rfl

theorem Course.emits : Emits E u t := by
  cases h with
  | goesOn _ out => exact out
  | ends v e code _ out end_ =>
    rw [end_, State.terminate_eq]
    exact out

/-- R254: of TXST and RXST the end of a session writes the one that ROLE names, and nothing else of a course does. -/
theorem Course.txst (hrx : u.role = .rx ∨ t.ph ≠ some .term) : t.txst = u.txst := by
  cases h with
  | goesOn frame _ => exact (congrArg State.txst frame :)
  | ends v e code frame _ end_ =>
    have hrole : v.role = u.role := (congrArg State.role frame :)
    rw [end_, State.terminate_eq] at hrx ⊢
    exact (if_pos (hrole.trans (hrx.resolve_right (not_not_intro rfl)))).trans (congrArg State.txst frame :)

theorem Course.rxst (htx : u.role ≠ .rx ∨ t.ph ≠ some .term) : t.rxst = u.rxst := by
  cases h with
  | goesOn frame _ => exact (congrArg State.rxst frame :)
  | ends v e code frame _ end_ =>
    have hrole : v.role = u.role := (congrArg State.role frame :)
    rw [end_, State.terminate_eq] at htx ⊢
    exact (if_neg (hrole ▸ htx.resolve_right (not_not_intro rfl))).trans (congrArg State.rxst frame :)

/-- R38: the last error is written by the end of a session with a failure only. -/
theorem Course.lastError : t.lastError = u.lastError ∨
    ∃ c, c ≠ .ok ∧ c ≠ .endOfTransfer ∧ t.lastError = some c ∧ t.result = some c ∧ t.status = some c ∧
      t.ph = some .term ∧ t.busy = false := by
  cases h with
  | goesOn frame _ => exact .inl (congrArg State.lastError frame :)
  | ends v e code frame _ end_ =>
    rw [end_, State.terminate_eq]
    by_cases hcode : code = .ok ∨ code = .endOfTransfer
    · exact .inl ((if_pos hcode).trans (congrArg State.lastError frame :))
    · obtain ⟨hok, heot⟩ := not_or.1 hcode
      exact .inr ⟨code, hok, heot, if_neg hcode, rfl, rfl, rfl, rfl⟩

end

/-! ### The frame of every instruction -/

/-- Every next state of an instruction is the state before with the instruction's own writes and its course. -/
theorem exec_frame {i : Instr} {s t : State} (h : exec i s = .next t) : t = (ownWrites i s t).onCourse t := by
  obtain ⟨u, hu, hcourse⟩ := exec_writes s i t h
  have ht := hcourse.eq_onCourse
  cases i <;> (rw [ht, hu]; rfl)

/-- What no instruction writes of its own. -/
theorem ownWrites_unwritten (i : Instr) (s t : State) :
    (ownWrites i s t).codes = s.codes ∧ (ownWrites i s t).bytesWidth = s.bytesWidth ∧
    (ownWrites i s t).inbox = s.inbox ∧ (ownWrites i s t).out = s.out ∧ (ownWrites i s t).lastError = s.lastError := by
  cases i <;> exact ⟨rfl, rfl, rfl, rfl, rfl⟩

theorem ownWrites_config {i : Instr} (hi : startCommand i = false) (s t : State) :
    SameConfig s (ownWrites i s t) ∧ (ownWrites i s t).role = s.role := by
  cases i with
  | hostStartRx | hostStartTx => cases hi
  | _ => exact ⟨⟨rfl, rfl, rfl, rfl, rfl⟩, rfl⟩

theorem ownWrites_pbuf {i : Instr} (hdata : ∀ d, i ≠ .rxData d) (hstart : ∀ cfg, i ≠ .hostStartRx cfg) (s t : State) :
    (ownWrites i s t).pbuf = s.pbuf := by
  cases i with
  | rxData d => exact absurd rfl (hdata d)
  | hostStartRx cfg => exact absurd rfl (hstart cfg)
  | _ => rfl

theorem ownWrites_frame {i : Instr} (hsoh : ∀ n d, i ≠ .txFrameSoh n d) (hstx : ∀ n d, i ≠ .txFrameStx n d)
    (hstart : ∀ cfg, i ≠ .hostStartTx cfg) (s t : State) :
    (ownWrites i s t).frame = s.frame ∧ (ownWrites i s t).flen = s.flen ∧ (ownWrites i s t).n = s.n := by
  cases i <;> simp_all [ownWrites]

/-! ### The receiver's and the sender's steps -/

/-- What a receiver step leaves as it was: the sender's registers, the session's, and the receiver's own but for the writes
of its rule. -/
theorem ownWrites_of_receiverStep {i : Instr} (hi : receiverStep i = true) (s t : State) :
    SameSession s (ownWrites i s t) ∧ SameSender s (ownWrites i s t) ∧ (ownWrites i s t).txst = s.txst ∧
    ((∀ d, i ≠ .rxData d) → (ownWrites i s t).pbuf = s.pbuf) ∧
    ((∀ v, i ≠ .rxChk v) →
      (ownWrites i s t).chkbuf = s.chkbuf ∧ (ownWrites i s t).blk = s.blk ∧ (ownWrites i s t).blkset = s.blkset ∧
      (ownWrites i s t).l = s.l) ∧
    ((∀ b, i ≠ .rxBnum b) → (ownWrites i s t).rblk = s.rblk) ∧
    ((∀ b, i ≠ .rxBcmp b) → (ownWrites i s t).rcblk = s.rcblk) ∧
    ((∀ b, i ≠ .rxBcmp b) → (∀ d, i ≠ .rxData d) → (ownWrites i s t).idx = s.idx) ∧
    ((∀ d, i ≠ .rxData d) →
      (ownWrites i s t).chklen = s.chklen ∧ ((∀ v, i ≠ .rxChk v) → (ownWrites i s t).cidx = s.cidx)) ∧
    (i ≠ .rxHdrSoh → i ≠ .rxHdrStx → (ownWrites i s t).psize = s.psize) ∧
    (i ≠ .rxSinkOk → (ownWrites i s t).bytes = s.bytes) ∧
    ((∀ c, i ≠ .rxSinkFail c) → (ownWrites i s t).storageCode = s.storageCode) := by
  cases i <;> simp_all [receiverStep, ownWrites, SameSession, SameConfig, SameSender]

theorem ownWrites_of_senderStep {i : Instr} (hi : senderStep i = true) (s t : State) :
    SameSession s (ownWrites i s t) ∧ SameReceiver s (ownWrites i s t) ∧ (ownWrites i s t).rxst = s.rxst ∧
    ((∀ n d, i ≠ .txFrameSoh n d) → (∀ n d, i ≠ .txFrameStx n d) →
      (ownWrites i s t).frame = s.frame ∧ (ownWrites i s t).flen = s.flen ∧ (ownWrites i s t).n = s.n) ∧
    (i ≠ .txHsCrq → i ≠ .txHsNak → (ownWrites i s t).mode = s.mode ∧
      (i ≠ .txRespAck → (ownWrites i s t).blk = s.blk ∧ (ownWrites i s t).srcAsked = s.srcAsked)) ∧
    (i ≠ .txRespAck → (ownWrites i s t).bytes = s.bytes) ∧
    ((∀ c, i ≠ .txSrcFail c) → (ownWrites i s t).storageCode = s.storageCode) := by
  cases i <;> simp_all [senderStep, ownWrites, SameSession, SameConfig, SameReceiver]

/-- The one byte RX.DATA stores is at IDX (R151). -/
theorem exec_rxData_pbuf {s t : State} {d : Byte} (h : exec (.rxData d) s = .next t) {a : Nat}
    (ha : ∀ j, s.idx = some j → a ≠ j) : Memory.read t.pbuf a = Memory.read s.pbuf a := by
  obtain ⟨-, h⟩ := live_next.1 h
  rcases State.need_next.1 h with ⟨i, hi, h⟩ | ⟨-, rfl⟩
  · obtain ⟨-, h⟩ := storeByte_next.1 h
    have hread := Memory.read_write_other s.pbuf d (ha i hi)
    rcases State.need_next.1 h with ⟨p, -, h⟩ | ⟨-, rfl⟩
    · split at h
      · rcases State.need_next.1 h with ⟨m, -, h⟩ | ⟨-, rfl⟩
        · cases h
          exact hread
        · exact hread
      · cases h
        exact hread
    · exact hread
  · rfl

/-- The one byte RX.CHK stores is at CIDX (R152). -/
theorem exec_rxChk_chkbuf {s t : State} {v : Byte} (h : exec (.rxChk v) s = .next t) {a : Nat}
    (ha : ∀ j, s.cidx = some j → a ≠ j) : Memory.read t.chkbuf a = Memory.read s.chkbuf a := by
  obtain ⟨-, h⟩ := live_next.1 h
  rcases State.need_next.1 h with ⟨i, hi, h⟩ | ⟨-, rfl⟩
  · obtain ⟨-, h⟩ := storeByte_next.1 h
    obtain ⟨u, hu, hcourse⟩ := Writes.afterCheckByte (E := fun _ => True) trivial trivial (i + 1) t h
    have ht := (congrArg State.chkbuf hcourse.eq_onCourse :).trans (congrArg State.chkbuf hu :)
    exact (congrArg (Memory.read · a) ht).trans (Memory.read_write_other _ v (ha i hi))
  · rfl

theorem txst_of_receiverStep {i : Instr} {s t : State} (hi : receiverStep i = true) (h : exec i s = .next t)
    (hrx : s.role = .rx ∨ t.ph ≠ some .term) : t.txst = s.txst := by
  obtain ⟨u, hu, hcourse⟩ := exec_writes s i t h
  obtain ⟨⟨hrole, -⟩, -, htxst, -⟩ := ownWrites_of_receiverStep hi { s with status := u.status } u
  rw [← hu] at hrole htxst
  exact (hcourse.txst (hrx.imp_left hrole.trans)).trans htxst

theorem rxst_of_senderStep {i : Instr} {s t : State} (hi : senderStep i = true) (h : exec i s = .next t)
    (htx : s.role ≠ .rx ∨ t.ph ≠ some .term) : t.rxst = s.rxst := by
  obtain ⟨u, hu, hcourse⟩ := exec_writes s i t h
  obtain ⟨⟨hrole, -⟩, -, hrxst, -⟩ := ownWrites_of_senderStep hi { s with status := u.status } u
  rw [← hu] at hrole hrxst
  exact (hcourse.rxst (htx.imp_left fun hne hrx => hne (hrole.symm.trans hrx))).trans hrxst

/-! ### Steps of the engine -/

/-- A step runs an instruction, with the event taken and the request cleared or not, or it runs none and may only wait or
fault. -/
theorem step_next_exec {s t : State} (h : step s = .next t) :
    (∃ i u, exec i u = .next t ∧ u.out = s.out ∧ u.lastError = s.lastError) ∨
      (t.out = s.out ∧ t.lastError = s.lastError) := by
  obtain ⟨-, ⟨-, rfl⟩ | ⟨e, rest, -, htook⟩⟩ := step_next h
  · exact .inr ⟨rfl, rfl⟩
  · cases htook with
    | badAnswer a r _ ht => exact .inr (ht ▸ ⟨rfl, rfl⟩)
    | noPhase a _ _ ht => exact .inr (ht ▸ ⟨rfl, rfl⟩)
    | answer a q p i _ _ _ _ he => exact .inl ⟨i, _, he, rfl, rfl⟩
    | startRx cfg he => exact .inl ⟨_, _, he, rfl, rfl⟩
    | startTx cfg he => exact .inl ⟨_, _, he, rfl, rfl⟩

theorem exec_out {i : Instr} {s t : State} (h : exec i s = .next t) :
    ∃ o, t.out = s.out ++ o ∧ ∀ x ∈ o, mayEmit s.codes i x := by
  obtain ⟨u, hu, hcourse⟩ := exec_writes s i t h
  obtain ⟨-, -, -, hout, -⟩ := ownWrites_unwritten i { s with status := u.status } u
  rw [← hu] at hout
  obtain ⟨o, ho, hE⟩ := hcourse.emits
  exact ⟨o, hout ▸ ho, hE⟩

theorem exec_lastError {i : Instr} {s t : State} (h : exec i s = .next t) : t.lastError = s.lastError ∨
    ∃ c, c ≠ .ok ∧ c ≠ .endOfTransfer ∧ t.lastError = some c ∧ t.result = some c ∧ t.status = some c ∧
      t.ph = some .term ∧ t.busy = false := by
  obtain ⟨u, hu, hcourse⟩ := exec_writes s i t h
  obtain ⟨-, -, -, -, hlast⟩ := ownWrites_unwritten i { s with status := u.status } u
  rw [← hu] at hlast
  exact hcourse.lastError.imp_left fun h => h.trans hlast

/-! ### BYTES (R40) -/

theorem ownWrites_bytes {i : Instr} (hstart : startCommand i = false) (hsink : i ≠ .rxSinkOk) (hack : i ≠ .txRespAck)
    (s t : State) : (ownWrites i s t).bytes = s.bytes := by
  cases i <;> simp_all [ownWrites, startCommand]

/-- START clears the count or faults. -/
theorem start_bytes {cfg : SessionCfg} {begin_ : State → State} (hbegin : ∀ u, (begin_ u).bytes = 0) {s t : State}
    (h : live s (start cfg begin_ s) = .next t) : t.bytes = s.bytes ∨ t.bytes = 0 := by
  obtain ⟨-, h⟩ := live_next.1 h
  rcases start_next.1 h with ⟨-, rfl⟩ | ⟨-, -, rfl⟩ | ⟨-, -, rfl⟩
  · exact .inl rfl
  · exact .inl rfl
  · exact .inr (hbegin _)

theorem exec_rxSinkOk_bytes {s t : State} (h : exec .rxSinkOk s = .next t) :
    t.bytes = s.bytes ∨ ∃ k, s.l = some k ∧ t.bytes = wrapBytes s.bytesWidth (s.bytes + k) := by
  obtain ⟨-, h⟩ := live_next.1 h
  rcases State.need_next.1 h with ⟨k, hk, h⟩ | ⟨-, rfl⟩
  · cases h
    exact .inr ⟨k, hk, rfl⟩
  · exact .inl rfl

theorem exec_txRespAck_bytes {s t : State} (h : exec .txRespAck s = .next t) :
    t.bytes = s.bytes ∨ ∃ k, s.n = some k ∧ t.bytes = wrapBytes s.bytesWidth (s.bytes + k) := by
  obtain ⟨-, h⟩ := live_next.1 h
  rcases State.need_next.1 h with ⟨k, hk, h⟩ | ⟨-, rfl⟩
  · refine .inr ⟨k, hk, ?_⟩
    rcases State.need_next.1 h with ⟨b, -, h⟩ | ⟨-, rfl⟩
    · rcases blockStart_next h with ⟨_, _, -, -, rfl⟩ | ⟨-, rfl⟩
      · rfl
      · rfl
    · rfl
  · exact .inl rfl

end Sys2Proof.Machine

namespace Sys2Proof

open Sys2Proof.Machine Sys2Proof.Safety

/-! ### The statements -/

/-- Settles O47. The frame of every instruction, read at the receiver's; of the two buffers the one byte stored. -/
theorem receiverStepFrame : Obligations.ReceiverStepFrame := by
  intro i s t hi h
  obtain ⟨hsession, hsender, -, hpbuf, hchk, hrblk, hrcblk, hidx, hchklen, hpsize, hbytes, hcode⟩ :=
    ownWrites_of_receiverStep hi s t
  have hframe := exec_frame h
  refine ⟨?_, ?_, fun hrole => txst_of_receiverStep hi h (.inl hrole), fun hph => txst_of_receiverStep hi h (.inr hph),
    fun a ha => ?_, fun a ha => ?_, ?_⟩
  · rw [hframe]
    exact hsession
  · rw [hframe]
    exact hsender
  · by_cases hdata : ∃ d, i = .rxData d
    · obtain ⟨d, rfl⟩ := hdata
      exact exec_rxData_pbuf h fun j hj => ha d j rfl hj
    · rw [hframe]
      exact congrArg (Memory.read · a) (hpbuf fun d hd => hdata ⟨d, hd⟩)
  · by_cases hlast : ∃ v, i = .rxChk v
    · obtain ⟨v, rfl⟩ := hlast
      exact exec_rxChk_chkbuf h fun j hj => ha v j rfl hj
    · rw [hframe]
      exact congrArg (Memory.read · a) (hchk fun v hv => hlast ⟨v, hv⟩).1
  · rw [hframe]
    exact ⟨fun hne => (hchk hne).2, hrblk, hrcblk, hidx, hchklen, hpsize, hbytes, hcode⟩

/-- Settles O48. The frame of every instruction, read at the sender's. -/
theorem senderStepFrame : Obligations.SenderStepFrame := by
  intro i s t hi h
  obtain ⟨hsession, hreceiver, -, hchunk, hmode, hbytes, hcode⟩ := ownWrites_of_senderStep hi s t
  have hframe := exec_frame h
  refine ⟨?_, ?_, fun hrole => rxst_of_senderStep hi h (.inl hrole), fun hph => rxst_of_senderStep hi h (.inr hph), ?_⟩
  · rw [hframe]
    exact hsession
  · rw [hframe]
    exact hreceiver
  · rw [hframe]
    exact ⟨hchunk, hmode, hbytes, hcode⟩

/-- Settles O49. -/
theorem buffersAreWrittenOnlyByTheirRules : Obligations.BuffersAreWrittenOnlyByTheirRules := by
  intro i s t h
  rw [exec_frame h]
  exact ⟨fun hdata hstart => ownWrites_pbuf hdata hstart s t, fun hsoh hstx hstart => ownWrites_frame hsoh hstx hstart s t⟩

/-- Settles O50. -/
theorem onlyStartWritesTheConfiguration : Obligations.OnlyStartWritesTheConfiguration := by
  intro i s t h
  obtain ⟨hcodes, hwidth, -⟩ := ownWrites_unwritten i s t
  rw [exec_frame h]
  exact ⟨hwidth, hcodes, fun hi => ownWrites_config hi s t⟩

/-- Settles O51. -/
theorem outputIsNeverWithdrawn : Obligations.OutputIsNeverWithdrawn := by
  intro s t h
  rcases step_next_exec h with ⟨i, u, he, hout, -⟩ | ⟨hout, -⟩
  · obtain ⟨o, ho, -⟩ := exec_out he
    exact ⟨o, hout ▸ ho⟩
  · exact ⟨[], hout.trans (List.append_nil _).symm⟩

/-- Settles O52. -/
theorem lastErrorChangesOnlyOnFailure : Obligations.LastErrorChangesOnlyOnFailure := by
  intro s t h
  rcases step_next_exec h with ⟨i, u, he, -, hlast⟩ | ⟨-, hlast⟩
  · exact (exec_lastError he).imp_left fun h => h.trans hlast
  · exact .inl hlast

/-- Settles O53. -/
theorem bytesCountsOnlyConfirmedData : Obligations.BytesCountsOnlyConfirmedData := by
  intro i s t h
  by_cases hsink : i = .rxSinkOk
  · subst hsink
    rcases exec_rxSinkOk_bytes h with hsame | ⟨k, hk, hbytes⟩
    · exact .inl hsame
    · exact .inr (.inr (.inl ⟨k, rfl, hk, hbytes⟩))
  by_cases hack : i = .txRespAck
  · subst hack
    rcases exec_txRespAck_bytes h with hsame | ⟨k, hk, hbytes⟩
    · exact .inl hsame
    · exact .inr (.inr (.inr ⟨k, rfl, hk, hbytes⟩))
  cases hstart : startCommand i with
  | false => exact .inl ((congrArg State.bytes (exec_frame h) :).trans (ownWrites_bytes hstart hsink hack s t))
  | true =>
    refine Or.imp_right (fun h0 => .inl ⟨rfl, h0⟩) ?_
    cases i <;> cases hstart
    · exact start_bytes (fun _ => rfl) h
    · exact start_bytes (fun _ => rfl) h

end Sys2Proof
end

section
/-! What a running session does: MODE in a receiver, and the order of its outputs and of the requests to sink and source
(41_receiver.md R163; 20_memory.md R68). -/

namespace Sys2Proof.Machine

open Sys2Proof.Safety

/-! ### The roles of the phases -/

/-- The phases of a running receiver (10_state.md R22). -/
def receiverPhase : Phase → Bool
  | .settle | .hdr | .bnum | .bcmp | .data | .chk | .sink => true
  | .hs | .src | .resp | .respCan | .eot | .eotCan | .term => false

/-- The phases of a running sender (10_state.md R22). -/
def senderPhase : Phase → Bool
  | .hs | .src | .resp | .respCan | .eot | .eotCan => true
  | .settle | .hdr | .bnum | .bcmp | .data | .chk | .sink | .term => false

theorem rxRunning_of_receiverPhase {s : State} {p : Phase} (hp : receiverPhase p = true)
    (h : PhaseInv s (some p)) : RxRunning s := by
  cases p with
  | settle | hdr | bnum | bcmp | data | chk | sink => exact h.1
  | hs | src | resp | respCan | eot | eotCan | term => cases hp

theorem txRunning_of_senderPhase {s : State} {p : Phase} (hp : senderPhase p = true)
    (h : PhaseInv s (some p)) : TxRunning s := by
  cases p with
  | hs => exact h.1
  | src | resp | respCan | eot | eotCan => exact h.1.1
  | settle | hdr | bnum | bcmp | data | chk | sink | term => cases hp

/-- A running session is in a phase of its role. -/
theorem running_phase {s : State} {p : Phase} (h : PhaseInv s (some p)) (hbusy : s.busy = true) :
    (receiverPhase p = true ∧ s.role = .rx) ∨ (senderPhase p = true ∧ s.role = .tx) := by
  by_cases hrx : receiverPhase p = true
  · obtain ⟨-, hrole, -⟩ := rxRunning_of_receiverPhase hrx h
    exact .inl ⟨hrx, hrole⟩
  by_cases htx : senderPhase p = true
  · obtain ⟨-, hrole, -⟩ := txRunning_of_senderPhase htx h
    exact .inr ⟨htx, hrole⟩
  · obtain rfl : p = .term := by cases p <;> simp_all [receiverPhase, senderPhase]
    obtain ⟨hidle, -⟩ := h
    exact nomatch hidle.symm.trans hbusy

/-- An answer at a phase is a step of the phase's role. -/
theorem step_of_encodes_answerAt {codes : Codes} {p : Phase} {a : Answer} {i : Instr}
    (h : .answerAt p a ∈ encode codes i) : receiverStep i = receiverPhase p ∧ senderStep i = senderPhase p := by
  cases i with
  | rxShortRead =>
    simp only [encode, List.mem_cons, List.not_mem_nil, or_false, Encoded.answerAt.injEq] at h
    rcases h with ⟨rfl, -⟩ | ⟨rfl, -⟩ | ⟨rfl, -⟩ | ⟨rfl, -⟩ <;> exact ⟨rfl, rfl⟩
  | _ => simp_all [encode, receiverStep, receiverPhase, senderStep, senderPhase]

theorem receiverStep_of_decodeAnswer {codes : Codes} {p : Phase} {a : Answer} {i : Instr} (hp : receiverPhase p = true)
    (h : decodeAnswer codes p a = .ok i) : receiverStep i = true :=
  (step_of_encodes_answerAt (encodes_of_decodeAnswer h).2).1.trans hp

theorem senderStep_of_decodeAnswer {codes : Codes} {p : Phase} {a : Answer} {i : Instr} (hp : senderPhase p = true)
    (h : decodeAnswer codes p a = .ok i) : senderStep i = true :=
  (step_of_encodes_answerAt (encodes_of_decodeAnswer h).2).2.trans hp

/-! ### The step of a running session -/

/-- With a session running the next event faults the engine, or it is the answer that a rule of the phase takes. -/
theorem running_step {s t : State} {e : Event} {rest : List Event} (hinv : Safety.Inv s) (hbusy : s.busy = true)
    (hi : s.inbox = e :: rest) (h : step s = .next t) :
    (t.faulted = true ∧ t.mode = s.mode ∧ t.out = s.out) ∨
      ∃ a p i, e = .answer a ∧ s.ph = some p ∧ PhaseInv s (some p) ∧ decodeAnswer s.codes p a = .ok i ∧
        exec i ((s.setInbox rest).setReq none) = .next t := by
  obtain ⟨hf, ⟨hnil, -⟩ | ⟨e', rest', hi', htook⟩⟩ := step_next h
  · exact nomatch hnil.symm.trans hi
  obtain ⟨rfl, rfl⟩ := List.cons.inj (hi'.symm.trans hi)
  obtain ⟨-, hphase⟩ := (inv_iff_of_live hf).1 hinv
  have start_raises : ∀ {cfg : SessionCfg} {begin_ : State → State},
      live (s.setInbox rest') (start cfg begin_ (s.setInbox rest')) = .next t →
      t.faulted = true ∧ t.mode = s.mode ∧ t.out = s.out := by
    intro cfg begin_ h
    obtain ⟨-, h⟩ := live_next.1 h
    rw [start_of_busy (s := s.setInbox rest') hbusy] at h
    cases h
    exact ⟨rfl, rfl, rfl⟩
  cases htook with
  | badAnswer a r _ ht =>
    rw [ht]
    exact .inl ⟨rfl, rfl, rfl⟩
  | noPhase a _ _ ht =>
    rw [ht]
    exact .inl ⟨rfl, rfl, rfl⟩
  | answer a q p i _ _ hp hd he => exact .inr ⟨a, p, i, rfl, hp, hp ▸ hphase, hd, he⟩
  | startRx cfg he => exact .inl (start_raises he)
  | startTx cfg he => exact .inl (start_raises he)

/-! ### MODE in a receiver session (R163) -/

/-- MODE is as it was, or it fell back from crc16 before the first verified packet, and a header is read next. -/
def KeepsMode (s t : State) : Prop :=
  t.mode = s.mode ∨ (s.mode = some .crc16 ∧ t.mode = some .checksum ∧ s.blkset = some false ∧ t.ph = some .hdr)

section
variable {s t : State} (ht : t.faultReason ≠ some .unwritten)
include ht

theorem failAttempt_keepsMode {cause : Result} (h : failAttempt cause s = .next t) : KeepsMode s t := by
  rcases failAttempt_next h with ⟨r, k, -, -, -, -, hset, hmode, rfl⟩ | ⟨r, -, -, rfl⟩ | ⟨r, b, -, -, -, rfl⟩ |
    ⟨-, -, hreason, -⟩
  · exact .inr ⟨hmode, rfl, hset, rfl⟩
  · rw [State.terminate_eq]
    exact .inl rfl
  · exact .inl rfl
  · exact absurd hreason ht

theorem evaluate_keepsMode (h : evaluate s = .next t) : KeepsMode s t := by
  rcases evaluate_next h with h | ⟨_, _, _, _, _, _, _, -, -, -, -, -, -, -, -, -, h⟩ | rfl
  · exact failAttempt_keepsMode ht h
  · rcases accept_next h with ⟨_, _, _, _, _, -, -, -, -, -, -, rfl⟩ | ⟨-, -, hreason, -⟩
    · exact .inl rfl
    · exact absurd hreason ht
  · exact .inl rfl

theorem rxChk_keepsMode {v : Byte} (h : exec (.rxChk v) s = .next t) : KeepsMode s t := by
  obtain ⟨-, h⟩ := live_next.1 h
  rcases State.need_next.1 h with ⟨i, -, h⟩ | ⟨-, rfl⟩
  · obtain ⟨-, h⟩ := storeByte_next.1 h
    rcases State.need_next.1 h with ⟨k, -, h⟩ | ⟨-, rfl⟩
    · split at h
      · exact (evaluate_keepsMode ht h :)
      · cases h
        exact .inl rfl
    · exact .inl rfl
  · exact .inl rfl

/-- Of the receiver's rules only failed attempts write MODE (R147, R148, R153, R154, R155). -/
theorem receiverStep_keepsMode {i : Instr} (hi : receiverStep i = true) (h : exec i s = .next t) : KeepsMode s t := by
  have hown : (ownWrites i s t).mode = s.mode → KeepsMode s t := fun hmode =>
    .inl ((congrArg State.mode (exec_frame h) :).trans hmode)
  cases i with
  | rxHdrOther | rxHdrTimeout | rxShortRead => exact failAttempt_keepsMode ht (live_next.1 h).2
  | rxChk => exact rxChk_keepsMode ht h
  | rxHdrSoh | rxHdrStx | rxHdrEot | rxHdrCan | rxBnum | rxBcmp | rxData | rxSinkOk | rxSinkFail | rxSettleElapsed =>
    exact hown rfl
  | _ => cases hi

end

/-! ### ACK from a receiver (R68 (a)) -/

/-- Of the receiver's rules only RX.HDR.EOT and RX.SINK.OK emit ACK (R145, R157). -/
theorem receiverStep_emits_ack {codes : Codes} (hcodes : codes.distinct = true) {i : Instr} (hi : receiverStep i = true)
    (h : mayEmit codes i (.wr codes.ack)) : i = .rxHdrEot ∨ i = .rxSinkOk := by
  obtain ⟨-, -, -, -, -, -, -, -, -, -, -, -, -, -, -, hnak, hcan, hcrq, -⟩ := Codes.ne_of_distinct hcodes
  cases i <;> simp_all [receiverStep, mayEmit]

/-! ### SRC from a sender (R68 (d)) -/

/-- While no fault is up, the source is not asked. -/
def NoSrc (t : State) : Prop := t.faulted = false → ∀ max first, t.req ≠ some (.src max first)

section
variable {s : State}

theorem NoSrc.raise (reason : FaultReason) : NoSrc (s.raise reason) := nofun

theorem NoSrc.request {q : Request} (hq : isSrc q = false) : NoSrc (s.request q) := by
  rintro - max first ⟨⟩
  cases hq

theorem NoSrc.terminate (e : EndState) (code : Result) : NoSrc (s.terminate e code) := by
  rw [State.terminate_eq]
  nofun

theorem sendFrame_noSrc : Answers (sendFrame s) NoSrc :=
  .need (.raise _) fun _ => .need (.raise _) fun _ => .ite (.next (.request rfl)) (.next (.raise _))

theorem frameChunk_noSrc (hdr : Byte) (p n : Nat) (d : Bytes) : Answers (frameChunk hdr p n d s) NoSrc :=
  .need (.raise _) fun _ => .need (.raise _) fun _ => .need (.raise _) fun _ => sendFrame_noSrc

theorem txFailAttempt_noSrc (cause : Result) : Answers (txFailAttempt cause s) NoSrc :=
  .need (.raise _) fun _ => .ite (.next (.terminate _ _)) sendFrame_noSrc

/-- Of the sender's rules only those that start a block ask the source (R195). -/
theorem senderStep_noSrc : ∀ i : Instr, senderStep i = true → i ≠ .txHsCrq → i ≠ .txHsNak → i ≠ .txRespAck →
    Answers (exec i s) NoSrc
  | .txHsCrq, _, hne, _, _ => absurd rfl hne
  | .txHsNak, _, _, hne, _ => absurd rfl hne
  | .txRespAck, _, _, _, hne => absurd rfl hne
  | .txHsOther _, _, _, _, _ | .txSrcEof, _, _, _, _ | .txRespCan, _, _, _, _ | .txEotCan, _, _, _, _ =>
    .live (.next (.request rfl))
  | .txFrameSoh _ _, _, _, _, _ | .txFrameStx _ _, _, _, _, _ => .live (frameChunk_noSrc _ _ _ _)
  | .txSrcContract _ _, _, _, _, _ => .live (.next (.raise _))
  | .txRespOther _, _, _, _, _ | .txRespCanOther _, _, _, _, _ => .live (txFailAttempt_noSrc _)
  | .txHsTimeout, _, _, _, _ | .txSrcFail _, _, _, _, _ | .txRespCanCan, _, _, _, _ | .txEotAck, _, _, _, _
  | .txEotTimeout, _, _, _, _ | .txEotOther _, _, _, _, _ | .txEotCanCan, _, _, _, _ | .txEotCanOther _, _, _, _, _ =>
    .live (.next (.terminate _ _))

end

end Sys2Proof.Machine

namespace Sys2Proof

open Sys2Proof.Machine Sys2Proof.Safety

/-! ### The statements -/

/-- Settles O54. The step keeps the invariant (O21), so no register without a value was read on the way. -/
theorem receiverModeOnlyFallsBack : Obligations.ReceiverModeOnlyFallsBack := by
  intro s t hinv hbusy hrole h
  cases hi : s.inbox with
  | nil =>
    obtain ⟨-, ⟨-, rfl⟩ | ⟨e, rest, hi', -⟩⟩ := step_next h
    · exact .inl rfl
    · exact nomatch hi.symm.trans hi'
  | cons e rest =>
    obtain ⟨-, -, -, hreason, -⟩ := everyStepKeepsTheInvariant s t hinv h
    rcases running_step hinv hbusy hi h with ⟨-, hmode, -⟩ | ⟨a, p, i, -, -, hphase, hd, he⟩
    · exact .inl hmode
    · rcases running_phase hphase hbusy with ⟨hp, -⟩ | ⟨-, htx⟩
      · exact (receiverStep_keepsMode hreason (receiverStep_of_decodeAnswer hp hd) he :)
      · exact nomatch hrole.symm.trans htx

/-- Settles O55. The rule that ran emits ACK, and its one encoding is the phase and the answer. -/
theorem ackFollowsTheSinkWrite : Obligations.AckFollowsTheSinkWrite := by
  intro s t e rest o hinv hbusy hrole hi h hout hack
  rcases running_step hinv hbusy hi h with ⟨-, -, hsame⟩ | ⟨a, p, i, rfl, hph, hphase, hd, he⟩
  · rw [List.append_right_eq_self.1 (hout.symm.trans hsame)] at hack
    cases hack
  rcases running_phase hphase hbusy with ⟨hp, -⟩ | ⟨-, htx⟩
  · obtain ⟨o', hout', hmay⟩ := exec_out he
    obtain rfl := List.append_cancel_left (hout.symm.trans hout')
    obtain ⟨hcodes, -⟩ := hinv
    obtain ⟨-, hmem⟩ := encodes_of_decodeAnswer hd
    rw [hph]
    rcases receiverStep_emits_ack hcodes (receiverStep_of_decodeAnswer hp hd) (hmay _ hack) with rfl | rfl
    · exact .inr (by simpa [encode] using hmem)
    · exact .inl (by simpa [encode] using hmem)
  · exact nomatch hrole.symm.trans htx

/-- Settles O56. The rule that ran asks the source, and its encodings are the phase and the answer. -/
theorem sourceIsAskedOnlyAfterAnAck : Obligations.SourceIsAskedOnlyAfterAnAck := by
  intro s t e rest max first hinv hbusy hrole hi h hf hreq
  rcases running_step hinv hbusy hi h with ⟨hfault, -, -⟩ | ⟨a, p, i, rfl, hph, hphase, hd, he⟩
  · exact nomatch hf.symm.trans hfault
  rcases running_phase hphase hbusy with ⟨-, hrx⟩ | ⟨hp, -⟩
  · exact nomatch hrole.symm.trans hrx
  · obtain ⟨-, hmem⟩ := encodes_of_decodeAnswer hd
    rw [hph]
    by_cases hask : i = .txHsCrq ∨ i = .txHsNak ∨ i = .txRespAck
    · rcases hask with rfl | rfl | rfl
      · exact .inl (by simp_all [encode])
      · exact .inl (by simp_all [encode])
      · exact .inr (by simpa [encode] using hmem)
    · obtain ⟨hcrq, hnak, hack⟩ := by simpa only [not_or] using hask
      exact absurd hreq (senderStep_noSrc i (senderStep_of_decodeAnswer hp hd) hcrq hnak hack t he hf max first)

end Sys2Proof
end

section
/-! Storage codes are opaque to the engine (10_state.md R39; 92_eei_decisions.md D9): every procedure, every instruction, the
decoder and the step commute with the renaming of the codes. -/

namespace Sys2Proof.Machine

open Sys2Proof.Safety

/-- An instruction with its storage code, if it has one, replaced. -/
def renameInstr (f : StorageCode → StorageCode) : Instr → Instr
  | .rxSinkFail code => .rxSinkFail (f code)
  | .txSrcFail code => .txSrcFail (f code)
  | i => i

/-- What a step fetches, with every storage code in it replaced. -/
def renameFetched (f : StorageCode → StorageCode) : Fetched → Fetched
  | .halted => .halted
  | .waiting => .waiting
  | .run i s => .run (renameInstr f i) (renameState f s)
  | .rejected s => .rejected (renameState f s)

section
variable (f : StorageCode → StorageCode)

/-! ### Branches and ends -/

theorem ite_renameState {c : Prop} [Decidable c] {k₁ k₂ k₁' k₂' : Step} (h₁ : k₁' = renameOutcome f k₁)
    (h₂ : k₂' = renameOutcome f k₂) : (if c then k₁' else k₂') = renameOutcome f (if c then k₁ else k₂) := by
  rw [h₁, h₂, apply_ite (renameOutcome f)]

theorem next_terminate_renameState (s : State) (e : EndState) (code : Result) :
    .next ((renameState f s).terminate e code) = renameOutcome f (.next (s.terminate e code)) :=
  congrArg Host.Outcome.next (renameState_terminate f s e code).symm

/-! ### The receiver's procedures -/

theorem fallbackOk_renameState (cause : Result) {s : State} {k k' : Bool → Step}
    (h : ∀ ok, k' ok = renameOutcome f (k ok)) :
    fallbackOk cause (renameState f s) k' = renameOutcome f (fallbackOk cause s k) :=
  ite_renameState f
    (need_renameState f fun _ => ite_renameState f (h _) (need_renameState f fun _ => h _))
    (h _)

theorem fallback_renameState (s : State) : fallback (renameState f s) = renameOutcome f (fallback s) :=
  need_renameState f (s := s.setMode (some .checksum)) fun _ => rfl

theorem retryResponse_renameState (cause : Result) (s : State) :
    retryResponse cause (renameState f s) = renameOutcome f (retryResponse cause s) :=
  ite_renameState f rfl (need_renameState f fun _ => ite_renameState f rfl (need_renameState f fun _ => rfl))

theorem afterFailure_renameState (cause : Result) (left : Nat) (s : State) :
    afterFailure cause left (renameState f s) = renameOutcome f (afterFailure cause left s) :=
  ite_renameState f
    (fallbackOk_renameState f cause fun _ =>
      ite_renameState f (fallback_renameState f s) (next_terminate_renameState f s _ _))
    (retryResponse_renameState f cause s)

theorem failAttempt_renameState (cause : Result) (s : State) :
    failAttempt cause (renameState f s) = renameOutcome f (failAttempt cause s) :=
  need_renameState f (s := s.setStatus (some cause)) fun r =>
    afterFailure_renameState f cause (r - 1) ((s.setStatus (some cause)).setRetry (some (r - 1)))

theorem handToSink_renameState (blk : Byte) (s : State) :
    handToSink blk (renameState f s) = renameOutcome f (handToSink blk s) :=
  need_renameState f fun _ => need_renameState f fun _ => needSlice_renameState f fun _ => rfl

theorem accept_renameState (s : State) : accept (renameState f s) = renameOutcome f (accept s) :=
  need_renameState f (s := s.setStatus (some .ok)) fun r =>
    need_renameState f (s := (s.setStatus (some .ok)).setRetry (some r)) fun b =>
      handToSink_renameState f b
        (((((s.setStatus (some .ok)).setRetry (some r)).setBlk (some b)).setBlkset (some true)).setRxst
          (some .receiving))

theorem verifyPacket_renameState (s : State) : verifyPacket (renameState f s) = renameOutcome f (verifyPacket s) :=
  need_renameState f fun _ => needSlice_renameState f fun _ => need_renameState f fun _ => need_renameState f fun _ =>
    needSlice_renameState f fun _ =>
      ite_renameState f (failAttempt_renameState f .crcError s) (accept_renameState f s)

theorem evaluate_renameState (s : State) : evaluate (renameState f s) = renameOutcome f (evaluate s) :=
  need_renameState f fun _ => need_renameState f fun _ =>
    ite_renameState f (verifyPacket_renameState f s) (failAttempt_renameState f .crcError s)

theorem afterPayloadByte_renameState (i : Nat) (s : State) :
    afterPayloadByte i (renameState f s) = renameOutcome f (afterPayloadByte i s) :=
  need_renameState f fun _ =>
    ite_renameState f (need_renameState f (s := s.setCidx (some 0)) fun _ => rfl) rfl

theorem afterCheckByte_renameState (i : Nat) (s : State) :
    afterCheckByte i (renameState f s) = renameOutcome f (afterCheckByte i s) :=
  need_renameState f fun _ => ite_renameState f (evaluate_renameState f s) rfl

/-! ### The sender's procedures -/

theorem blockStart_renameState (s : State) : blockStart (renameState f s) = renameOutcome f (blockStart s) :=
  need_renameState f (s := s.setPh (some .src)) fun _ =>
    need_renameState f (s := s.setPh (some .src)) fun _ => rfl

theorem handshake_renameState (m : Mode) (s : State) :
    handshake m (renameState f s) = renameOutcome f (handshake m s) :=
  blockStart_renameState f (((s.setMode (some m)).setBlk (some 1)).setTxst (some .sending))

theorem nextBlock_renameState (s : State) : nextBlock (renameState f s) = renameOutcome f (nextBlock s) :=
  need_renameState f fun b => blockStart_renameState f (s.setBlk (some (b + 1)))

theorem sendFrame_renameState (s : State) : sendFrame (renameState f s) = renameOutcome f (sendFrame s) :=
  need_renameState f fun _ => need_renameState f fun _ => ite_renameState f rfl rfl

theorem sendFirst_renameState (s : State) : sendFirst (renameState f s) = renameOutcome f (sendFirst s) :=
  need_renameState f fun r => sendFrame_renameState f (s.setTretry (some r))

theorem frameChunk_renameState (hdr : Byte) (p n : Nat) (d : Bytes) (s : State) :
    frameChunk hdr p n d (renameState f s) = renameOutcome f (frameChunk hdr p n d s) :=
  need_renameState f (s := s.setN (some n)) fun b =>
    need_renameState f (s := s.setN (some n)) fun m =>
      sendFirst_renameState f
        (((s.setN (some n)).setFrame (some (encodeFrame hdr b (pad d p) m))).setFlen (some (3 + p + checkLen m)))

theorem txFailAttempt_renameState (cause : Result) (s : State) :
    txFailAttempt cause (renameState f s) = renameOutcome f (txFailAttempt cause s) :=
  need_renameState f (s := s.setStatus (some cause)) fun r =>
    ite_renameState f (next_terminate_renameState f ((s.setStatus (some cause)).setTretry (some (r - 1))) _ _)
      (sendFrame_renameState f ((s.setStatus (some cause)).setTretry (some (r - 1))))

/-! ### Storage failures, and START -/

/-- The one rule that has a storage code in its hand copies it (R158, R201). -/
theorem storageFailure_renameState (code : StorageCode) (s : State) :
    storageFailure (f code) (renameState f s) = renameOutcome f (storageFailure code s) :=
  next_terminate_renameState f (s.emitAbort.setStorageCode (some code)) _ _

theorem start_renameState (cfg : SessionCfg) {begin_ : State → State}
    (h : ∀ s, begin_ (renameState f s) = renameState f (begin_ s)) (s : State) :
    start cfg begin_ (renameState f s) = renameOutcome f (start cfg begin_ s) := by
  refine ite_renameState f rfl (ite_renameState f ?_ rfl)
  rw [← renameState_latch, h]
  rfl

/-! ### Every instruction -/

theorem exec_renameState (s : State) : ∀ i : Instr, exec (renameInstr f i) (renameState f s) = renameOutcome f (exec i s)
  | .rxHdrOther _ | .rxHdrTimeout | .rxShortRead => live_renameState f (failAttempt_renameState f _ s)
  | .rxHdrEot => live_renameState f (next_terminate_renameState f (s.emit s.codes.ack) _ _)
  | .rxData _ =>
    live_renameState f (need_renameState f fun i => storeByte_renameState f fun m =>
      afterPayloadByte_renameState f (i + 1) ((s.setPbuf m).setIdx (some (i + 1))))
  | .rxChk _ =>
    live_renameState f (need_renameState f fun i => storeByte_renameState f fun m =>
      afterCheckByte_renameState f (i + 1) ((s.setChkbuf m).setCidx (some (i + 1))))
  | .rxSinkOk | .rxSettleElapsed | .firstTag _ => live_renameState f (need_renameState f fun _ => rfl)
  | .rxSinkFail code | .txSrcFail code => live_renameState f (storageFailure_renameState f code s)
  | .txHsCrq | .txHsNak => live_renameState f (handshake_renameState f _ s)
  | .txFrameSoh _ _ | .txFrameStx _ _ => live_renameState f (frameChunk_renameState f _ _ _ _ s)
  | .txRespAck =>
    live_renameState f (need_renameState f (s := s.setStatus (some .ok)) fun n =>
      nextBlock_renameState f ((s.setStatus (some .ok)).addBytes n))
  | .txRespOther _ | .txRespCanOther _ => live_renameState f (txFailAttempt_renameState f _ s)
  | .rxHdrCan | .txHsTimeout | .txRespCanCan | .txEotAck | .txEotTimeout | .txEotOther _ | .txEotCanCan
  | .txEotCanOther _ => live_renameState f (next_terminate_renameState f s _ _)
  | .hostStartRx cfg =>
    live_renameState f (start_renameState f cfg (fun s => (renameState_rxStart f s).symm) s)
  | .hostStartTx cfg =>
    live_renameState f (start_renameState f cfg (fun s => (renameState_txStart f s).symm) s)
  | .rxHdrSoh | .rxHdrStx | .rxBnum _ | .rxBcmp _ | .txHsOther _ | .txSrcEof | .txSrcContract _ _ | .txRespCan
  | .txEotCan | .rxEmitCrq | .rxEmitNak | .rxEmitAck | .rxEmitAbort | .txEmitEot | .txEmitAbort | .txEmitFlush
  | .hostRd _ | .hostWr _ | .hostWrbuf _ | .hostFlush | .hostDelay | .hostSink _ _ | .hostSrc _ _
  | .crc16Update _ _ | .crc16 _ _ | .cksum _ | .inferSize _ | .checkLen _ | .chkBytes _ _ | .verify _ _ _
  | .blkchk _ _ | .pad _ _ | .encodeFrame _ _ _ _ | .sizeSelect _ | .trim _ | .startByte _ =>
    live_renameState f rfl

/-! ### The decoder and the fetch -/

theorem legalAnswer_renameAnswer (q : Request) (a : Answer) : legalAnswer q (renameAnswer f a) = legalAnswer q a := by
  cases q <;> cases a <;> rfl

/-- An instruction has a storage code only from its answer. -/
theorem renameInstr_of_encodes {codes : Codes} {p : Phase} {a : Answer} {i : Instr} (h : .answerAt p a ∈ encode codes i)
    (ha : renameAnswer f a = a) : renameInstr f i = i := by
  cases i with
  | rxSinkFail code | txSrcFail code =>
    obtain ⟨-, rfl⟩ : p = _ ∧ a = _ := by simpa [encode] using h
    simpa [renameInstr, renameAnswer] using ha
  | _ => rfl

theorem decodeAnswer_renameAnswer (codes : Codes) (p : Phase) (a : Answer) :
    decodeAnswer codes p (renameAnswer f a) = (decodeAnswer codes p a).map (renameInstr f) := by
  have hfixed (ha : renameAnswer f a = a) :
      decodeAnswer codes p (renameAnswer f a) = (decodeAnswer codes p a).map (renameInstr f) := by
    rw [ha]
    cases hd : decodeAnswer codes p a with
    | error e => rfl
    | ok i =>
      obtain ⟨-, hmem⟩ := encodes_of_decodeAnswer hd
      exact congrArg Except.ok (renameInstr_of_encodes f hmem ha).symm
  cases a with
  | sinkFail code | srcFail code => cases p <;> rfl
  | _ => exact hfixed rfl

theorem fetchAnswer_renameState (a : Answer) (s : State) :
    fetchAnswer (renameAnswer f a) (renameState f s) = renameFetched f (fetchAnswer a s) := by
  simp only [fetchAnswer, renameState_req, renameState_ph, renameState_codes, legalAnswer_renameAnswer]
  cases s.req with
  | none => rfl
  | some q =>
    by_cases hl : legalAnswer q a = true
    · simp only [if_pos hl]
      cases s.ph with
      | none => rfl
      | some p =>
        simp only [decode, decodeAnswer_renameAnswer]
        cases decodeAnswer s.codes p a <;> rfl
    · simp only [if_neg hl]
      rfl

theorem fetch_renameState (s : State) : fetch (renameState f s) = renameFetched f (fetch s) := by
  unfold fetch
  by_cases hf : s.faulted = true
  · rw [if_pos hf, if_pos (by exact hf)]
    rfl
  · rw [if_neg hf, if_neg (by exact hf), renameState_inbox]
    cases s.inbox with
    | nil => rfl
    | cons e rest =>
      cases e with
      | answer a => exact fetchAnswer_renameState f a (s.setInbox rest)
      | startRx cfg | startTx cfg => rfl

end

end Sys2Proof.Machine

namespace Sys2Proof

open Sys2Proof.Machine Sys2Proof.Safety

/-! ### The statement -/

/-- Settles O60. The fetch commutes with the renaming, and so does the instruction that it fetched. -/
theorem storageCodesAreOnlyCopied : Obligations.StorageCodesAreOnlyCopied := by
  intro f s
  simp only [step, fetch_renameState]
  cases fetch s with
  | run i u => exact exec_renameState f u i
  | halted | waiting | rejected u => rfl

end Sys2Proof
end
